-- ==== Sys2Proof/Word.lean ====
section
/-! DEFINITION. The word types of the block: registers, addresses, bytes and the transaction word. -/

namespace Sys2Proof

/-- A register, a source pixel, a composed pixel (`REG_WIDTH` = 32, 00_scope.md R6, R7). -/
abbrev Word := BitVec 32

/-- A byte address of the memory master port (`ADDR_WIDTH` = 32, 00_scope.md R6). -/
abbrev Addr := BitVec 32

/-- One byte of memory, or of a packed pixel. -/
abbrev Byte := BitVec 8

/-- A byte offset in the register window, 0x000 to 0xFFF (20_memory.md R51, R52). -/
abbrev Offset := BitVec 12

/-- The 45-bit transaction word of a legal host access (30_encoding.md R75). -/
abbrev TransWord := BitVec 45

end Sys2Proof
end

