-- ==== Sys2Proof/Config.lean ====
section
/-! DEFINITION. What the platform fixes (the rows marked OPEN of 00_scope.md R6) and the free values. -/

namespace Sys2Proof

/-- The byte order of source words, `NATIVE_ENDIAN` (20_memory.md R56, R59). -/
inductive Endian where
  | le
  | be
  deriving DecidableEq, Repr

/-- Why a range of addresses gives a bus error to the engine (20_memory.md R54, R55). -/
inductive RegionKind where
  /-- No memory there. -/
  | absent
  /-- A device is mapped there: its accesses count as failing (R55). -/
  | device
  /-- A register window is mapped there: its accesses count as failing (R55). -/
  | registerWindow
  deriving DecidableEq, Repr

/-- A range of `size` addresses from `base` up on which `MEM_OK` is false. -/
structure Region where
  base : Nat
  size : Nat
  kind : RegionKind
  deriving DecidableEq, Repr

/-- The OPEN parameters of 00_scope.md R6. The spec makes them arguments of the model: they are data
that no step changes, so a statement about every state is about every platform (entry 3). -/
structure Platform where
  /-- `PP_BASE` is `ppPage * 0x1000`, so it is a multiple of 0x1000 as 20_memory.md R51 asks. -/
  ppPage : Nat
  /-- `NATIVE_ENDIAN`. -/
  nativeEndian : Endian
  /-- Where `MEM_OK` is false; elsewhere it is true. On 2^32 addresses every predicate has this form
  (entry 4). -/
  noMem : List Region
  deriving DecidableEq, Repr

/-- The free bytes, in the order they are drawn: what a race leaves in memory or answers
(20_memory.md R69), and what a reset in BUSY leaves (70_reset_and_hazards.md R221). Nothing
constrains them (entries 8 and 9). -/
opaque Config.freeByte : Nat → BitVec 8

end Sys2Proof
end

