-- ==== Sys2Proof/Machine/State.lean ====
section
/-! DEFINITION. Everything the spec gives the block: the register block (10_state.md R21 to R39), the hidden state
(R40 to R42), memory, the OPEN parameters, and the inputs and the response of the host. -/

namespace Sys2Proof.Machine

/-- `STATUS.STATE` (10_state.md R33, R43). -/
inductive EngineState where
  | idle
  | busy
  | done
  | aborted
  deriving DecidableEq, Repr

/-- The abort causes of 60_exceptions.md R191, codes 0 to 13. Codes 14 and 15 are never written, so no
constructor stands for them. -/
inductive Cause where
  | none
  | srcNotTruecolour
  | srcBpp
  | srcDepth
  | dstNotTruecolour
  | dstBpp
  | dstDepth
  | bpppInvalid
  | srcMisaligned
  | srcRange
  | dstRange
  | alias_
  | busRead
  | busWrite
  deriving DecidableEq, Repr

/-- The phase `ph` of the engine (10_state.md R41). -/
inductive Phase where
  | read
  | write
  deriving DecidableEq, Repr

/-- One value for each channel lane, R, G and B (41_datapath.md R164). -/
structure PerChannel (α : Type) where
  r : α
  g : α
  b : α
  deriving DecidableEq, Repr

/-- The fields of a pixel-format descriptor (10_state.md R21 to R27). -/
structure PixelFormat where
  bpp : Byte
  depth : Byte
  bigEndian : Bool
  trueColour : Bool
  max : PerChannel (BitVec 16)
  shift : PerChannel Byte
  deriving DecidableEq, Repr

/-- The latched configuration `L` (10_state.md R40) with the derived values (R42). -/
structure Latched where
  src : PixelFormat
  dst : PixelFormat
  bppp : Byte
  len : Word
  srcAddr : Addr
  dstAddr : Addr
  srcBits : PerChannel (BitVec 5)
  dstBits : PerChannel (BitVec 5)
  effShift : PerChannel Byte
  deriving DecidableEq, Repr

/-- Memory `M` (20_memory.md R54): the bytes that differ from what an unlisted address reads as,
addresses strictly rising (entry 1). -/
abbrev Memory := List Host.Cell

/-- A host access at an absolute host address, `bytes` wide; `data` is the write data and is not looked
at for a read (20_memory.md R52). -/
structure HostAccess where
  write : Bool
  addr : Nat
  bytes : Nat
  data : Word
  deriving DecidableEq, Repr

/-- What the world outside the engine does to the block and to the shared memory. -/
inductive Input where
  /-- A host access to the host's address space, the register window among it (20_memory.md R51, R52). -/
  | access (a : HostAccess)
  /-- A byte of memory is read by means outside the block (20_memory.md R54, R69). -/
  | memRead (a : Addr)
  /-- A byte of memory is written by means outside the block (20_memory.md R54, R69). -/
  | memWrite (a : Addr) (v : Byte)
  /-- The platform asserts and releases reset (70_reset_and_hazards.md R220, R221). -/
  | reset
  deriving DecidableEq, Repr

/-- An input, and how many engine steps the engine takes before it while it stays BUSY. These counts
are the scheduler of 70_reset_and_hazards.md R230: being finite, they make it weakly fair (entry 6). -/
structure TimedInput where
  after : Nat
  act : Input
  deriving DecidableEq, Repr

/-- What the last input was answered (entry 7). -/
inductive Response where
  /-- Nothing: no access yet, or one that did not reach the block. -/
  | none
  /-- A write completed normally. -/
  | done
  /-- Read data of a register read. -/
  | data (v : Word)
  /-- The byte of an outside memory read. -/
  | byte (v : Byte)
  /-- The bus error of an illegal access (40_host_ops.md R142). -/
  | busError
  deriving DecidableEq, Repr

/-- The state of the block, the memory it shares with the host, and the host's side of the port. -/
structure State where
  srcCfg : Word
  srcMaxRG : Word
  srcMaxB : Word
  srcShift : Word
  dstCfg : Word
  dstMaxRG : Word
  dstMaxB : Word
  dstShift : Word
  bppp : Word
  len : Word
  srcAddr : Addr
  dstAddr : Addr
  irqEn : Word
  pixelsDone : Word
  faultAddr : Addr
  engine : EngineState
  cause : Cause
  lat : Latched
  pix : Word
  byteIdx : BitVec 2
  phase : Phase
  sp : Addr
  dp : Addr
  out : List Byte
  mem : Memory
  plat : Platform
  inputs : List TimedInput
  resp : Response
  /-- The model's own: pixels of the running conversion whose output a race left free (entry 8). -/
  raced : List Nat
  /-- The model's own: how many free bytes have been drawn (entry 8). -/
  draws : Nat
  deriving DecidableEq, Repr

/-- Why the machine stops. Both are raised by an engine step in states that no run reaches. -/
inductive Fault where
  /-- BUSY, phase READ and a pixel index above `L.len`: neither the read step (42_sequencer.md R174) nor
  the completion (R177) is enabled, and the spec gives no other step. Raised by the engine's turn.
  Safe: the model stops where the spec enables nothing (entry 13). -/
  | noEngineStep
  /-- Phase WRITE and no byte `out[j]` held (R175). Raised by the write step. Safe (entry 13). -/
  | noHeldByte
  deriving DecidableEq, Repr

/-- Why an instruction has no meaning. No arm of exec is refused. -/
inductive Refusal where
  /-- Raised by exec for an instruction that has no meaning yet; safe. -/
  | notModelled (mnemonic : String)
  deriving DecidableEq, Repr

/-- A descriptor with every field 0. -/
def PixelFormat.zero : PixelFormat :=
  { bpp := 0, depth := 0, bigEndian := false, trueColour := false, max := ⟨0, 0, 0⟩,
    shift := ⟨0, 0, 0⟩ }

/-- The latched configuration the model gives the block at reset: R48 leaves it unspecified. DESIGN
CHOICE, entry 2. -/
def Latched.zero : Latched :=
  { src := .zero, dst := .zero, bppp := 0, len := 0, srcAddr := 0, dstAddr := 0,
    srcBits := ⟨0, 0, 0⟩, dstBits := ⟨0, 0, 0⟩, effShift := ⟨0, 0, 0⟩ }

/-- The state after reset (70_reset_and_hazards.md R220, 10_state.md R39). The hidden state (entry 2),
the platform (entry 3), the memory (entry 1), the inputs and the response (entries 5, 7) and the
model's own fields (entry 19) are DESIGN CHOICEs. -/
def State.reset : State :=
  { srcCfg := 0, srcMaxRG := 0, srcMaxB := 0, srcShift := 0
    dstCfg := 0, dstMaxRG := 0, dstMaxB := 0, dstShift := 0
    bppp := 0, len := 0, srcAddr := 0, dstAddr := 0
    irqEn := 0, pixelsDone := 0, faultAddr := 0
    engine := .idle, cause := .none
    lat := .zero, pix := 0, byteIdx := 0, phase := .read, sp := 0, dp := 0, out := []
    mem := [], plat := { ppPage := 0, nativeEndian := .le, noMem := [] }
    inputs := [], resp := .none, raced := [], draws := 0 }

end Sys2Proof.Machine
end

