-- ==== Sys2Proof/Machine/Datapath.lean ====
section
/-! DEFINITION. The per-pixel datapath of 41_datapath.md: a pure function of a source pixel and the latched configuration. -/

namespace Sys2Proof.Machine

/-- Apply a lane's operation in each of the three lanes (41_datapath.md R164). -/
def PerChannel.map {α β : Type} (f : α → β) (c : PerChannel α) : PerChannel β :=
  ⟨f c.r, f c.g, f c.b⟩

/-- EXTRACT (R151). -/
def extractField (px : Word) (shift : Byte) (max : BitVec 16) : Word :=
  (px >>> shift.toNat) &&& max.setWidth 32

/-- The number of bits equal to 1 (00_scope.md R8). -/
def popcount (m : BitVec 16) : Nat := (List.range 16).countP (fun k => m.getLsbD k)

/-- POPCOUNT, a channel's width in 5 bits (R152, 10_state.md R42). -/
def channelWidth (max : BitVec 16) : BitVec 5 := BitVec.ofNat 5 (popcount max)

/-- RESCALE (R153): shifts, with no rounding and no mask. -/
def rescale (f : Word) (srcBits dstBits : BitVec 5) : Word := (f <<< dstBits.toNat) >>> srcBits.toNat

/-- The least of three bytes (00_scope.md R8). -/
def min3 (a b c : Byte) : Byte := BitVec.ofNat 8 (min a.toNat (min b.toNat c.toNat))

/-- The condition `N` of the 3-byte shift normaliser (R154). -/
def normalises (bppp : Byte) (dst : PixelFormat) : Bool :=
  bppp == 3 && dst.bpp == 32 && decide (dst.depth.toNat ≤ 24)

/-- NORMALIZE (R154): the effective shifts. -/
def effectiveShifts (bppp : Byte) (dst : PixelFormat) : PerChannel Byte :=
  if normalises bppp dst then
    let m := min3 dst.shift.r dst.shift.g dst.shift.b
    dst.shift.map (fun c => c - m)
  else dst.shift

/-- POSITION (R155). -/
def position (f : Word) (shift : Byte) : Word := f <<< shift.toNat

/-- COMPOSE (R156). -/
def compose (p : PerChannel Word) : Word := p.r ||| p.g ||| p.b

/-- The rescaled value of one lane (R151, R153). -/
def laneField (px : Word) (shift : Byte) (max : BitVec 16) (srcBits dstBits : BitVec 5) : Word :=
  rescale (extractField px shift max) srcBits dstBits

/-- The three positioned values of a pixel (R151 to R155). -/
def positioned (L : Latched) (px : Word) : PerChannel Word :=
  ⟨position (laneField px L.src.shift.r L.src.max.r L.srcBits.r L.dstBits.r) L.effShift.r,
   position (laneField px L.src.shift.g L.src.max.g L.srcBits.g L.dstBits.g) L.effShift.g,
   position (laneField px L.src.shift.b L.src.max.b L.srcBits.b L.dstBits.b) L.effShift.b⟩

/-- The composed word `cpx` (R156). -/
def composedPixel (L : Latched) (px : Word) : Word := compose (positioned L px)

/-- PACK1 (R157); the byte order is irrelevant. -/
def packOne (_bigEndian : Bool) (cpx : Word) : List Byte := [cpx.extractLsb' 0 8]

/-- PACK2 (R158). -/
def packTwo (bigEndian : Bool) (cpx : Word) : List Byte :=
  if bigEndian then [cpx.extractLsb' 8 8, cpx.extractLsb' 0 8]
  else [cpx.extractLsb' 0 8, cpx.extractLsb' 8 8]

/-- PACK3 (R159). -/
def packThree (bigEndian : Bool) (cpx : Word) : List Byte :=
  if bigEndian then [cpx.extractLsb' 16 8, cpx.extractLsb' 8 8, cpx.extractLsb' 0 8]
  else [cpx.extractLsb' 0 8, cpx.extractLsb' 8 8, cpx.extractLsb' 16 8]

/-- The packed bytes of a composed word, by the latched width (30_encoding.md R87). A width that no
packer has never reaches the datapath (R160). -/
def packBytes (bppp : Byte) (bigEndian : Bool) (cpx : Word) : List Byte :=
  if bppp = 1 then packOne bigEndian cpx
  else if bppp = 2 then packTwo bigEndian cpx
  else if bppp = 3 then packThree bigEndian cpx
  else []

/-- CONVERT_PIXEL (R161). -/
def convertPixel (L : Latched) (px : Word) : List Byte :=
  packBytes L.bppp L.dst.bigEndian (composedPixel L px)

end Sys2Proof.Machine
end

