-- ==== Sys2Proof/Machine/Flags.lean ====
section
/-! DEFINITION. The block's only flags, the fields of STATUS (10_state.md R33, R45), and the interrupt level (R47). -/

namespace Sys2Proof.Machine

/-- The encoding of `STATE` (30_encoding.md R84). -/
def EngineState.code : EngineState → BitVec 2
  | .idle => 0
  | .busy => 1
  | .done => 2
  | .aborted => 3

/-- The cause codes of 60_exceptions.md R191. -/
def Cause.code : Cause → BitVec 4
  | .none => 0
  | .srcNotTruecolour => 1
  | .srcBpp => 2
  | .srcDepth => 3
  | .dstNotTruecolour => 4
  | .dstBpp => 5
  | .dstDepth => 6
  | .bpppInvalid => 7
  | .srcMisaligned => 8
  | .srcRange => 9
  | .dstRange => 10
  | .alias_ => 11
  | .busRead => 12
  | .busWrite => 13

/-- `IRQ_EN.DONE_IE`, bit 0 (30_encoding.md R85). -/
def doneIE (s : State) : Bool := s.irqEn.getLsbD 0

/-- `IRQ_EN.ABORT_IE`, bit 1 (30_encoding.md R85). -/
def abortIE (s : State) : Bool := s.irqEn.getLsbD 1

/-- The interrupt output (10_state.md R47). -/
def irqLevel (s : State) : Bool :=
  (s.engine == .done && doneIE s) || (s.engine == .aborted && abortIE s)

/-- `STATUS` as read: `{CAUSE, 0b00000, IRQ, STATE}` zero-extended (40_host_ops.md R114). -/
def statusWord (s : State) : Word :=
  (0#20 ++ s.cause.code ++ 0#5 ++ BitVec.ofBool (irqLevel s) ++ s.engine.code :
    BitVec (20 + 4 + 5 + 1 + 2))

end Sys2Proof.Machine
end

