-- ==== Sys2Proof/Syntax.lean ====
section
/-! DEFINITION. The operations of spec/opcode_table.json, one constructor a row, and the register names. -/

namespace Sys2Proof

/-- The registers of the window, in the order of 30_encoding.md R76. -/
inductive RegName where
  | srcCfg
  | srcMaxRG
  | srcMaxB
  | srcShift
  | dstCfg
  | dstMaxRG
  | dstMaxB
  | dstShift
  | bppp
  | len
  | srcAddr
  | dstAddr
  | ctrl
  | status
  | irqEn
  | pixelsDone
  | faultAddr
  | id
  deriving DecidableEq, Repr

/-- The operations. `data` is the write data `T[31:0]`; `rest` is `DATA[31:2]` of a CTRL write, which
the block ignores (30_encoding.md R83); `off` is a reserved offset; `bppp` is the latched width that
selects no packer (R87). -/
inductive Instr where
  /-- RD_SRC_CFG, 40_host_ops.md R101. -/
  | rdSrcCfg
  /-- RD_SRC_MAX_RG, 40_host_ops.md R102. -/
  | rdSrcMaxRG
  /-- RD_SRC_MAX_B, 40_host_ops.md R103. -/
  | rdSrcMaxB
  /-- RD_SRC_SHIFT, 40_host_ops.md R104. -/
  | rdSrcShift
  /-- RD_DST_CFG, 40_host_ops.md R105. -/
  | rdDstCfg
  /-- RD_DST_MAX_RG, 40_host_ops.md R106. -/
  | rdDstMaxRG
  /-- RD_DST_MAX_B, 40_host_ops.md R107. -/
  | rdDstMaxB
  /-- RD_DST_SHIFT, 40_host_ops.md R108. -/
  | rdDstShift
  /-- RD_BPPP, 40_host_ops.md R109. -/
  | rdBppp
  /-- RD_LEN, 40_host_ops.md R110. -/
  | rdLen
  /-- RD_SRC_ADDR, 40_host_ops.md R111. -/
  | rdSrcAddr
  /-- RD_DST_ADDR, 40_host_ops.md R112. -/
  | rdDstAddr
  /-- RD_CTRL, 40_host_ops.md R113. -/
  | rdCtrl
  /-- RD_STATUS, 40_host_ops.md R114. -/
  | rdStatus
  /-- RD_IRQ_EN, 40_host_ops.md R115. -/
  | rdIrqEn
  /-- RD_PIXELS_DONE, 40_host_ops.md R116. -/
  | rdPixelsDone
  /-- RD_FAULT_ADDR, 40_host_ops.md R117. -/
  | rdFaultAddr
  /-- RD_ID, 40_host_ops.md R118. -/
  | rdId
  /-- WR_SRC_CFG, 40_host_ops.md R119. -/
  | wrSrcCfg (data : Word)
  /-- WR_SRC_MAX_RG, 40_host_ops.md R120. -/
  | wrSrcMaxRG (data : Word)
  /-- WR_SRC_MAX_B, 40_host_ops.md R121. -/
  | wrSrcMaxB (data : Word)
  /-- WR_SRC_SHIFT, 40_host_ops.md R122. -/
  | wrSrcShift (data : Word)
  /-- WR_DST_CFG, 40_host_ops.md R123. -/
  | wrDstCfg (data : Word)
  /-- WR_DST_MAX_RG, 40_host_ops.md R124. -/
  | wrDstMaxRG (data : Word)
  /-- WR_DST_MAX_B, 40_host_ops.md R125. -/
  | wrDstMaxB (data : Word)
  /-- WR_DST_SHIFT, 40_host_ops.md R126. -/
  | wrDstShift (data : Word)
  /-- WR_BPPP, 40_host_ops.md R127. -/
  | wrBppp (data : Word)
  /-- WR_LEN, 40_host_ops.md R128. -/
  | wrLen (data : Word)
  /-- WR_SRC_ADDR, 40_host_ops.md R129. -/
  | wrSrcAddr (data : Word)
  /-- WR_DST_ADDR, 40_host_ops.md R130. -/
  | wrDstAddr (data : Word)
  /-- WR_IRQ_EN, 40_host_ops.md R131. -/
  | wrIrqEn (data : Word)
  /-- WR_STATUS, 40_host_ops.md R132. -/
  | wrStatus (data : Word)
  /-- WR_PIXELS_DONE, 40_host_ops.md R133. -/
  | wrPixelsDone (data : Word)
  /-- WR_FAULT_ADDR, 40_host_ops.md R134. -/
  | wrFaultAddr (data : Word)
  /-- WR_ID, 40_host_ops.md R135. -/
  | wrId (data : Word)
  /-- CTRL_NOP, 40_host_ops.md R136. -/
  | ctrlNop (rest : BitVec 30)
  /-- CTRL_START, 40_host_ops.md R137. -/
  | ctrlStart (rest : BitVec 30)
  /-- CTRL_CLEAR, 40_host_ops.md R138. -/
  | ctrlClear (rest : BitVec 30)
  /-- CTRL_CLEAR_START, 40_host_ops.md R139. -/
  | ctrlClearStart (rest : BitVec 30)
  /-- RD_RSVD, 40_host_ops.md R140. -/
  | rdRsvd (off : Offset)
  /-- WR_RSVD, 40_host_ops.md R141. -/
  | wrRsvd (off : Offset) (data : Word)
  /-- PACK1, 41_datapath.md R157. -/
  | pack1
  /-- PACK2, 41_datapath.md R158. -/
  | pack2
  /-- PACK3, 41_datapath.md R159. -/
  | pack3
  /-- PACK_INVALID, 41_datapath.md R160. -/
  | packInvalid (bppp : Byte)
  deriving DecidableEq, Repr

end Sys2Proof
end

