-- ==== Sys2Proof/WellFormed.lean ====
section
/-! DEFINITION. Which operations stand for a transaction word or a pack mode of the spec. -/

namespace Sys2Proof

/-- The offsets RD_RSVD and WR_RSVD cover: 0x048 to 0xFFC, a multiple of 4 (30_encoding.md R89, R90). -/
abbrev reservedOffset (off : Offset) : Prop :=
  0x048 ≤ off.toNat ∧ off.toNat ≤ 0xFFC ∧ off.toNat % 4 = 0

/-- The values PACK_INVALID covers: every 8-bit value but 1, 2 and 3 (30_encoding.md R87). -/
abbrev invalidWidth (b : Byte) : Prop := b ≠ 1 ∧ b ≠ 2 ∧ b ≠ 3

/-- Well-formedness: only the fallback rows constrain their operands. -/
def Instr.wf : Instr → Bool
  | .rdRsvd off => decide (reservedOffset off)
  | .wrRsvd off _ => decide (reservedOffset off)
  | .packInvalid b => decide (invalidWidth b)
  | .rdSrcCfg | .rdSrcMaxRG | .rdSrcMaxB | .rdSrcShift | .rdDstCfg | .rdDstMaxRG | .rdDstMaxB
  | .rdDstShift | .rdBppp | .rdLen | .rdSrcAddr | .rdDstAddr | .rdCtrl | .rdStatus | .rdIrqEn
  | .rdPixelsDone | .rdFaultAddr | .rdId => true
  | .wrSrcCfg _ | .wrSrcMaxRG _ | .wrSrcMaxB _ | .wrSrcShift _ | .wrDstCfg _ | .wrDstMaxRG _
  | .wrDstMaxB _ | .wrDstShift _ | .wrBppp _ | .wrLen _ | .wrSrcAddr _ | .wrDstAddr _ | .wrIrqEn _
  | .wrStatus _ | .wrPixelsDone _ | .wrFaultAddr _ | .wrId _ => true
  | .ctrlNop _ | .ctrlStart _ | .ctrlClear _ | .ctrlClearStart _ => true
  | .pack1 | .pack2 | .pack3 => true

end Sys2Proof
end

