-- ==== Sys2Proof/Decode.lean ====
section
/-! DEFINITION. The two encodings of 30_encoding.md: the transaction word of a host access (R75, R89) and the
pack mode selected by the latched width (R87). Decoder, encoder, and the table-word entry of the host. -/

namespace Sys2Proof

/-- A word of the opcode table: a transaction word (format `mmio`) or a latched width (`pack_mode`). -/
inductive Code where
  | mmio (t : TransWord)
  | pack (b : Byte)
  deriving DecidableEq, Repr

/-- Why some bits are no operation. -/
inductive DecodeError where
  /-- `OFF[1:0]` is not 0: an illegal access, which has no transaction word (30_encoding.md R90). -/
  | misalignedOffset
  /-- The top three bits of a printed 48-bit word are not 0 (30_encoding.md R93). -/
  | topBitsSet
  /-- Neither one byte (a pack mode) nor six bytes (a transaction word). -/
  | badLength
  deriving DecidableEq, Repr

/-- Offsets, 30_encoding.md R76. -/
def RegName.offset : RegName → Offset
  | .srcCfg => 0x000
  | .srcMaxRG => 0x004
  | .srcMaxB => 0x008
  | .srcShift => 0x00C
  | .dstCfg => 0x010
  | .dstMaxRG => 0x014
  | .dstMaxB => 0x018
  | .dstShift => 0x01C
  | .bppp => 0x020
  | .len => 0x024
  | .srcAddr => 0x028
  | .dstAddr => 0x02C
  | .ctrl => 0x030
  | .status => 0x034
  | .irqEn => 0x038
  | .pixelsDone => 0x03C
  | .faultAddr => 0x040
  | .id => 0x044

/-- The registers of 30_encoding.md R76. -/
def RegName.all : List RegName :=
  [.srcCfg, .srcMaxRG, .srcMaxB, .srcShift, .dstCfg, .dstMaxRG, .dstMaxB, .dstShift, .bppp, .len,
   .srcAddr, .dstAddr, .ctrl, .status, .irqEn, .pixelsDone, .faultAddr, .id]

/-- The register at an offset, or none at a reserved offset (20_memory.md R53). -/
def regAt (off : Offset) : Option RegName := RegName.all.find? (fun r => r.offset == off)

/-- Field `W` of the transaction word (30_encoding.md R75). -/
def transW (t : TransWord) : Bool := t.getLsbD 44

/-- Field `OFF`. -/
def transOff (t : TransWord) : Offset := t.extractLsb' 32 12

/-- Field `DATA`. -/
def transData (t : TransWord) : Word := t.extractLsb' 0 32

/-- `T = W * 2^44 + OFF * 2^32 + DATA` (30_encoding.md R75). -/
def transWord (w : Bool) (off : Offset) (data : Word) : TransWord :=
  (BitVec.ofBool w ++ off ++ data : BitVec (1 + 12 + 32))

/-- `OFF[1:0] = 0` (20_memory.md R52). -/
def alignedOffset (off : Offset) : Bool := off.extractLsb' 0 2 == 0

/-- The read of each register (30_encoding.md R89, column W = 0). -/
def readInstr : RegName → Instr
  | .srcCfg => .rdSrcCfg
  | .srcMaxRG => .rdSrcMaxRG
  | .srcMaxB => .rdSrcMaxB
  | .srcShift => .rdSrcShift
  | .dstCfg => .rdDstCfg
  | .dstMaxRG => .rdDstMaxRG
  | .dstMaxB => .rdDstMaxB
  | .dstShift => .rdDstShift
  | .bppp => .rdBppp
  | .len => .rdLen
  | .srcAddr => .rdSrcAddr
  | .dstAddr => .rdDstAddr
  | .ctrl => .rdCtrl
  | .status => .rdStatus
  | .irqEn => .rdIrqEn
  | .pixelsDone => .rdPixelsDone
  | .faultAddr => .rdFaultAddr
  | .id => .rdId

/-- The four commands, selected by `DATA[1:0]` (30_encoding.md R83): bit 0 is START, bit 1 CLEAR. -/
def ctrlInstr (data : Word) : Instr :=
  let rest : BitVec 30 := data.extractLsb' 2 30
  match data.getLsbD 1, data.getLsbD 0 with
  | false, false => .ctrlNop rest
  | false, true => .ctrlStart rest
  | true, false => .ctrlClear rest
  | true, true => .ctrlClearStart rest

/-- The write of each register (30_encoding.md R89, column W = 1). -/
def writeInstr (data : Word) : RegName → Instr
  | .srcCfg => .wrSrcCfg data
  | .srcMaxRG => .wrSrcMaxRG data
  | .srcMaxB => .wrSrcMaxB data
  | .srcShift => .wrSrcShift data
  | .dstCfg => .wrDstCfg data
  | .dstMaxRG => .wrDstMaxRG data
  | .dstMaxB => .wrDstMaxB data
  | .dstShift => .wrDstShift data
  | .bppp => .wrBppp data
  | .len => .wrLen data
  | .srcAddr => .wrSrcAddr data
  | .dstAddr => .wrDstAddr data
  | .ctrl => ctrlInstr data
  | .status => .wrStatus data
  | .irqEn => .wrIrqEn data
  | .pixelsDone => .wrPixelsDone data
  | .faultAddr => .wrFaultAddr data
  | .id => .wrId data

/-- Decode of a transaction word: the register rows first, the fallback rows RD_RSVD and WR_RSVD only
where no register lies at the offset (30_encoding.md R75, R89, 90_conflicts.md C9). The DATA of a read
selects nothing: it is outside the row's mask (entry 10). -/
def decodeMmio (t : TransWord) : Except DecodeError Instr :=
  let off := transOff t
  if alignedOffset off then
    match regAt off, transW t with
    | some r, false => .ok (readInstr r)
    | some r, true => .ok (writeInstr (transData t) r)
    | none, false => .ok (.rdRsvd off)
    | none, true => .ok (.wrRsvd off (transData t))
  else .error .misalignedOffset

/-- Decode of the latched width `L.bppp` (30_encoding.md R87); every value is some row. -/
def decodePack (b : Byte) : Instr :=
  if b = 1 then .pack1 else if b = 2 then .pack2 else if b = 3 then .pack3 else .packInvalid b

/-- The decoder of both formats. -/
def decode : Code → Except DecodeError Instr
  | .mmio t => decodeMmio t
  | .pack b => .ok (decodePack b)

/-- The bits as a number, the first byte least significant. -/
def bytesToNat : List Byte → Nat
  | [] => 0
  | b :: bs => b.toNat + 256 * bytesToNat bs

/-- Any bytes as a word of the opcode table: one byte is a pack mode, six bytes (the first the least
significant) are the 48-bit printed form of a transaction word (30_encoding.md R93; entry 11). -/
def Code.ofBytes (bs : List Byte) : Except DecodeError Code :=
  if bs.length = 1 then .ok (.pack (BitVec.ofNat 8 (bytesToNat bs)))
  else if bs.length = 6 then
    if bytesToNat bs < 2 ^ 45 then .ok (.mmio (BitVec.ofNat 45 (bytesToNat bs)))
    else .error .topBitsSet
  else .error .badLength

/-- Decode, total on any bytes. -/
def decodeBytes (bs : List Byte) : Except DecodeError Instr :=
  match Code.ofBytes bs with
  | .ok c => decode c
  | .error e => .error e

/-- The transaction word of a read (`W = 0`, `DATA = 0`). -/
def encodeRead (r : RegName) : Code := .mmio (transWord false r.offset 0)

/-- The transaction word of a write (`W = 1`). -/
def encodeWrite (r : RegName) (data : Word) : Code := .mmio (transWord true r.offset data)

/-- The transaction word of a CTRL write: `DATA` is `{rest, CLEAR, START}` (30_encoding.md R83). -/
def encodeCtrl (rest : BitVec 30) (clear start : Bool) : Code :=
  encodeWrite .ctrl (rest ++ BitVec.ofBool clear ++ BitVec.ofBool start : BitVec (30 + 1 + 1))

/-- The encoder (30_encoding.md R75, R87, R89). -/
def encode : Instr → Code
  | .rdSrcCfg => encodeRead .srcCfg
  | .rdSrcMaxRG => encodeRead .srcMaxRG
  | .rdSrcMaxB => encodeRead .srcMaxB
  | .rdSrcShift => encodeRead .srcShift
  | .rdDstCfg => encodeRead .dstCfg
  | .rdDstMaxRG => encodeRead .dstMaxRG
  | .rdDstMaxB => encodeRead .dstMaxB
  | .rdDstShift => encodeRead .dstShift
  | .rdBppp => encodeRead .bppp
  | .rdLen => encodeRead .len
  | .rdSrcAddr => encodeRead .srcAddr
  | .rdDstAddr => encodeRead .dstAddr
  | .rdCtrl => encodeRead .ctrl
  | .rdStatus => encodeRead .status
  | .rdIrqEn => encodeRead .irqEn
  | .rdPixelsDone => encodeRead .pixelsDone
  | .rdFaultAddr => encodeRead .faultAddr
  | .rdId => encodeRead .id
  | .wrSrcCfg d => encodeWrite .srcCfg d
  | .wrSrcMaxRG d => encodeWrite .srcMaxRG d
  | .wrSrcMaxB d => encodeWrite .srcMaxB d
  | .wrSrcShift d => encodeWrite .srcShift d
  | .wrDstCfg d => encodeWrite .dstCfg d
  | .wrDstMaxRG d => encodeWrite .dstMaxRG d
  | .wrDstMaxB d => encodeWrite .dstMaxB d
  | .wrDstShift d => encodeWrite .dstShift d
  | .wrBppp d => encodeWrite .bppp d
  | .wrLen d => encodeWrite .len d
  | .wrSrcAddr d => encodeWrite .srcAddr d
  | .wrDstAddr d => encodeWrite .dstAddr d
  | .wrIrqEn d => encodeWrite .irqEn d
  | .wrStatus d => encodeWrite .status d
  | .wrPixelsDone d => encodeWrite .pixelsDone d
  | .wrFaultAddr d => encodeWrite .faultAddr d
  | .wrId d => encodeWrite .id d
  | .ctrlNop rest => encodeCtrl rest false false
  | .ctrlStart rest => encodeCtrl rest false true
  | .ctrlClear rest => encodeCtrl rest true false
  | .ctrlClearStart rest => encodeCtrl rest true true
  | .rdRsvd off => .mmio (transWord false off 0)
  | .wrRsvd off d => .mmio (transWord true off d)
  | .pack1 => .pack 1
  | .pack2 => .pack 2
  | .pack3 => .pack 3
  | .packInvalid b => .pack b

/-- The word of the opcode table that `nbits` and `w` name: a `pack_mode` row has 8 bits (PACK_INVALID's
mask covers none of them), an `mmio` row 45 bits in six bytes (entry 11). -/
def codeOfTableWord (nbits w : Nat) : Option Code :=
  if nbits ≤ 8 then
    if w < 2 ^ 8 then some (.pack (BitVec.ofNat 8 w)) else none
  else if w < 2 ^ 45 then some (.mmio (BitVec.ofNat 45 w)) else none

/-- The instruction the decoder reads from a word numbered as spec/opcode_table.json numbers it. -/
def decodeTableWord (nbits w : Nat) : Option Instr :=
  match codeOfTableWord nbits w with
  | none => none
  | some c =>
    match decode c with
    | .ok i => some i
    | .error _ => none

end Sys2Proof
end

