-- ==== Sys2Proof/Machine/Operands.lean ====
section
/-! DEFINITION. Operand assembly (30_encoding.md R88): the fields of the registers as rules R77 to R82 place them, the
assembly of a source word from four bytes (20_memory.md R56), and the address of a register access. -/

namespace Sys2Proof.Machine

/-- The bits of each register a write stores and a read shows (R101 to R131 of 40_host_ops.md, layouts
30_encoding.md R77 to R85). CTRL and the read-only registers store no written bit. -/
def fieldMask : RegName → Word
  | .srcCfg | .dstCfg => 0x0003FFFF
  | .srcMaxRG | .dstMaxRG => 0xFFFFFFFF
  | .srcMaxB | .dstMaxB => 0x0000FFFF
  | .srcShift | .dstShift => 0x00FFFFFF
  | .bppp => 0x000000FF
  | .len | .srcAddr | .dstAddr => 0xFFFFFFFF
  | .irqEn => 0x00000003
  | .ctrl | .status | .pixelsDone | .faultAddr | .id => 0

/-- The descriptor four registers hold (30_encoding.md R77 to R80). -/
def formatOf (cfg maxRG maxB shift : Word) : PixelFormat :=
  { bpp := cfg.extractLsb' 0 8
    depth := cfg.extractLsb' 8 8
    bigEndian := cfg.getLsbD 16
    trueColour := cfg.getLsbD 17
    max := ⟨maxRG.extractLsb' 0 16, maxRG.extractLsb' 16 16, maxB.extractLsb' 0 16⟩
    shift := ⟨shift.extractLsb' 0 8, shift.extractLsb' 8 8, shift.extractLsb' 16 8⟩ }

/-- The SRC descriptor as the registers stand (10_state.md R21). -/
def srcFormat (s : State) : PixelFormat := formatOf s.srcCfg s.srcMaxRG s.srcMaxB s.srcShift

/-- The DST descriptor as the registers stand (10_state.md R21). -/
def dstFormat (s : State) : PixelFormat := formatOf s.dstCfg s.dstMaxRG s.dstMaxB s.dstShift

/-- `BPPP.VALUE`, bits [7:0] (30_encoding.md R81). -/
def widthValue (s : State) : Byte := s.bppp.extractLsb' 0 8

/-- A source word from the bytes at `a`, `a+1`, `a+2`, `a+3` (20_memory.md R56). -/
def assemble (e : Endian) (b0 b1 b2 b3 : Byte) : Word :=
  match e with
  | .le => b3 ++ b2 ++ b1 ++ b0
  | .be => b0 ++ b1 ++ b2 ++ b3

/-- `WINDOW_SIZE` (00_scope.md R6). -/
def windowSize : Nat := 0x1000

/-- `PP_BASE`, a multiple of 0x1000 (20_memory.md R51). -/
def ppBase (p : Platform) : Nat := p.ppPage * windowSize

/-- The byte offset in the register window of a host address, if it lies there (20_memory.md R51). -/
def windowOffset (p : Platform) (addr : Nat) : Option Offset :=
  if ppBase p ≤ addr ∧ addr < ppBase p + windowSize then some (BitVec.ofNat 12 (addr - ppBase p))
  else none

/-- An access in the window is legal when it is 32 bits wide and `off[1:0] = 0` (20_memory.md R52). -/
def legalAccess (off : Offset) (bytes : Nat) : Bool := bytes == 4 && alignedOffset off

/-- The transaction word of a legal access at `off` (30_encoding.md R75): a read has `DATA = 0`. -/
def accessWord (off : Offset) (a : HostAccess) : TransWord :=
  transWord a.write off (if a.write then a.data else 0)

end Sys2Proof.Machine
end

