-- ==== Sys2Proof/Machine/Ops.lean ====
section
/-! DEFINITION. The named operations over memory and registers, the abort (60_exceptions.md R192) and the return from it
(40_host_ops.md R138). -/

namespace Sys2Proof.Machine

/-- What an address nothing has written reads as. The spec gives memory no contents. DESIGN CHOICE,
unsafe, entry 1. -/
def unlistedByte : Byte := 0

/-- The byte at an address. -/
def Memory.get (a : Nat) : Memory → Byte
  | [] => unlistedByte
  | (b, v) :: m => if b = a then v else Memory.get a m

/-- Store a byte, keeping the addresses rising and no entry equal to the unlisted byte. -/
def Memory.set (a : Nat) (v : Byte) : Memory → Memory
  | [] => if v = unlistedByte then [] else [(a, v)]
  | (b, w) :: m =>
    if a < b then (if v = unlistedByte then (b, w) :: m else (a, v) :: (b, w) :: m)
    else if a = b then (if v = unlistedByte then m else (a, v) :: m)
    else (b, w) :: Memory.set a v m

/-- The canonical form: addresses strictly rising and below 2^32 (20_memory.md R54), no entry equal to
what an unlisted address reads as. -/
def Memory.wf (m : Memory) : Bool :=
  decide (m.Pairwise (fun c d => c.1 < d.1)) &&
    m.all (fun c => decide (c.1 < 2 ^ 32) && c.2 != unlistedByte)

/-- Store free bytes, drawn from number `k` on, at `a` and the `n - 1` addresses after it. -/
def Memory.freeRange (a : Addr) (k : Nat) : Nat → Memory → Memory
  | 0, m => m
  | n + 1, m =>
    Memory.freeRange a k n (m.set (a + BitVec.ofNat 32 n).toNat (Config.freeByte (k + n)))

/-- The byte of the shared memory at an address. -/
def byteAt (s : State) (a : Addr) : Byte := s.mem.get a.toNat

/-- `MEM_OK(a)` (20_memory.md R54, R55). -/
def memOk (p : Platform) (a : Addr) : Bool :=
  p.noMem.all (fun r => !(decide (r.base ≤ a.toNat) && decide (a.toNat < r.base + r.size)))

/-- `MEM_OK` of the four bytes of a source word (20_memory.md R56). -/
def wordOk (p : Platform) (a : Addr) : Bool :=
  memOk p a && memOk p (a + 1) && memOk p (a + 2) && memOk p (a + 3)

/-- The word `MemRead(a, 4)` returns when it completes (20_memory.md R56). -/
def wordAt (s : State) (a : Addr) : Word :=
  assemble s.plat.nativeEndian (byteAt s a) (byteAt s (a + 1)) (byteAt s (a + 2)) (byteAt s (a + 3))

/-- `MemRead(a, 4)`: none is the bus error (20_memory.md R56). -/
def memReadWord (s : State) (a : Addr) : Option Word :=
  if wordOk s.plat a then some (wordAt s a) else none

/-- Store a byte in the shared memory. -/
def storeByte (a : Addr) (v : Byte) (s : State) : State := { s with mem := s.mem.set a.toNat v }

/-- `MemWrite(a, 1, v)`: none is the bus error, which leaves memory unchanged (20_memory.md R57). -/
def memWriteByte (a : Addr) (v : Byte) (s : State) : Option State :=
  if memOk s.plat a then some (storeByte a v s) else none

/-- `ID_VALUE` (00_scope.md R6, 10_state.md R37). -/
def idValue : Word := 0x504B0001

/-- What a read of each register returns (40_host_ops.md R101 to R118). -/
def readReg (s : State) : RegName → Word
  | .srcCfg => s.srcCfg &&& fieldMask .srcCfg
  | .srcMaxRG => s.srcMaxRG &&& fieldMask .srcMaxRG
  | .srcMaxB => s.srcMaxB &&& fieldMask .srcMaxB
  | .srcShift => s.srcShift &&& fieldMask .srcShift
  | .dstCfg => s.dstCfg &&& fieldMask .dstCfg
  | .dstMaxRG => s.dstMaxRG &&& fieldMask .dstMaxRG
  | .dstMaxB => s.dstMaxB &&& fieldMask .dstMaxB
  | .dstShift => s.dstShift &&& fieldMask .dstShift
  | .bppp => s.bppp &&& fieldMask .bppp
  | .len => s.len &&& fieldMask .len
  | .srcAddr => s.srcAddr &&& fieldMask .srcAddr
  | .dstAddr => s.dstAddr &&& fieldMask .dstAddr
  | .ctrl => 0
  | .status => statusWord s
  | .irqEn => s.irqEn &&& fieldMask .irqEn
  | .pixelsDone => s.pixelsDone
  | .faultAddr => s.faultAddr
  | .id => idValue

/-- A write of each register (40_host_ops.md R119 to R135): the field bits are stored, a read-only
register keeps its value. CTRL stores nothing; its commands are `commandStart` and `commandClear`. -/
def writeReg (r : RegName) (d : Word) (s : State) : State :=
  match r with
  | .srcCfg => { s with srcCfg := d &&& fieldMask .srcCfg }
  | .srcMaxRG => { s with srcMaxRG := d &&& fieldMask .srcMaxRG }
  | .srcMaxB => { s with srcMaxB := d &&& fieldMask .srcMaxB }
  | .srcShift => { s with srcShift := d &&& fieldMask .srcShift }
  | .dstCfg => { s with dstCfg := d &&& fieldMask .dstCfg }
  | .dstMaxRG => { s with dstMaxRG := d &&& fieldMask .dstMaxRG }
  | .dstMaxB => { s with dstMaxB := d &&& fieldMask .dstMaxB }
  | .dstShift => { s with dstShift := d &&& fieldMask .dstShift }
  | .bppp => { s with bppp := d &&& fieldMask .bppp }
  | .len => { s with len := d &&& fieldMask .len }
  | .srcAddr => { s with srcAddr := d &&& fieldMask .srcAddr }
  | .dstAddr => { s with dstAddr := d &&& fieldMask .dstAddr }
  | .irqEn => { s with irqEn := d &&& fieldMask .irqEn }
  | .ctrl | .status | .pixelsDone | .faultAddr | .id => s

/-- The answer of the slave port, or of an outside memory access (entry 7). -/
def respond (r : Response) (s : State) : State := { s with resp := r }

/-- TAKING AN ABORT, `raise Abort(cause, addr)` (60_exceptions.md R192): nothing else is written, and
PIXELS_DONE keeps its value. -/
def raiseAbort (c : Cause) (a : Addr) (s : State) : State :=
  { s with engine := .aborted, cause := c, faultAddr := a }

/-- THE RETURN from DONE or ABORTED to IDLE (60_exceptions.md R197, 40_host_ops.md R138). -/
def clearRecord (s : State) : State :=
  { s with engine := .idle, cause := .none, faultAddr := 0, pixelsDone := 0 }

end Sys2Proof.Machine
end

