-- ==== Sys2Proof/Machine/Sequencer.lean ====
section
/-! DEFINITION. The START sequence, the two commands, and the steps of the engine (42_sequencer.md). -/

namespace Sys2Proof.Machine

/-- The source range of a conversion ends here, as an exact integer (42_sequencer.md R171). -/
def srcEnd (srcAddr : Addr) (len : Word) : Nat := srcAddr.toNat + 4 * len.toNat

/-- The destination range of a conversion ends here, as an exact integer (R171). -/
def dstEnd (dstAddr : Addr) (len : Word) (bppp : Byte) : Nat := dstAddr.toNat + bppp.toNat * len.toNat

/-- The first of the format and width checks that fails, codes 1 to 7 in the order of R171. -/
def formatCheck (src dst : PixelFormat) (bppp : Byte) : Option Cause :=
  if src.trueColour = false then some .srcNotTruecolour
  else if src.bpp ≠ 32 then some .srcBpp
  else if src.depth.toNat > 32 then some .srcDepth
  else if dst.trueColour = false then some .dstNotTruecolour
  else if dst.bpp.toNat > 32 then some .dstBpp
  else if dst.depth.toNat > 24 then some .dstDepth
  else if ¬(bppp = 1 ∨ bppp = 2 ∨ bppp = 3) then some .bpppInvalid
  else none

/-- The first of the buffer checks that fails with the address it records, codes 8 to 11 in the order
of R171; made only when there is a buffer. -/
def bufferCheck (srcAddr dstAddr : Addr) (len : Word) (bppp : Byte) : Option (Cause × Addr) :=
  if len = 0 then none
  else if srcAddr.extractLsb' 0 2 ≠ 0 then some (.srcMisaligned, srcAddr)
  else if srcEnd srcAddr len > 2 ^ 32 then some (.srcRange, srcAddr)
  else if dstEnd dstAddr len bppp > 2 ^ 32 then some (.dstRange, dstAddr)
  else if srcAddr.toNat < dstEnd dstAddr len bppp ∧ dstAddr.toNat < srcEnd srcAddr len then
    some (.alias_, dstAddr)
  else none

/-- The first check of the START sequence that fails, with its FAULT_ADDR (R171, 60_exceptions.md R191). -/
def startCheck (s : State) : Option (Cause × Addr) :=
  match formatCheck (srcFormat s) (dstFormat s) (widthValue s) with
  | some c => some (c, 0)
  | none => bufferCheck s.srcAddr s.dstAddr s.len (widthValue s)

/-- The latched configuration of a START, with its derived values (42_sequencer.md R172). -/
def latchedOf (s : State) : Latched :=
  { src := srcFormat s
    dst := dstFormat s
    bppp := widthValue s
    len := s.len
    srcAddr := s.srcAddr
    dstAddr := s.dstAddr
    srcBits := (srcFormat s).max.map channelWidth
    dstBits := (dstFormat s).max.map channelWidth
    effShift := effectiveShifts (widthValue s) (dstFormat s) }

/-- A START whose checks all passed: the latch (R172), the record cleared, BUSY. The races of an earlier
conversion are forgotten (entry 8). -/
def beginConversion (s : State) : State :=
  { s with
    lat := latchedOf s
    pix := 0, byteIdx := 0, phase := .read, sp := s.srcAddr, dp := s.dstAddr
    cause := .none, faultAddr := 0, engine := .busy
    raced := [] }

/-- The START sequence (R171). -/
def startSequence (s : State) : State :=
  let s0 := { s with pixelsDone := 0 }
  match startCheck s with
  | some (c, a) => raiseAbort c a s0
  | none => beginConversion s0

/-- START: accepted in IDLE and DONE, ignored in BUSY and ABORTED (40_host_ops.md R137). -/
def commandStart (s : State) : State :=
  if s.engine = .idle ∨ s.engine = .done then startSequence s else s

/-- CLEAR: leaves DONE and ABORTED, ignored in IDLE and BUSY (40_host_ops.md R138). -/
def commandClear (s : State) : State :=
  if s.engine = .done ∨ s.engine = .aborted then clearRecord s else s

/-- When the read step is enabled (42_sequencer.md R174). -/
abbrev readEnabled (s : State) : Prop :=
  s.engine = .busy ∧ s.phase = .read ∧ s.pix.toNat < s.lat.len.toNat

/-- The engine's read step with the selected packer (R174, R178). Where it is not enabled the engine
takes no step (60_exceptions.md R207; entry 12). -/
def readStep (pack : Bool → Word → List Byte) (s : State) : State :=
  if readEnabled s then
    match memReadWord s s.sp with
    | none => raiseAbort .busRead s.sp s
    | some px =>
      { s with
        out := pack s.lat.dst.bigEndian (composedPixel s.lat px)
        byteIdx := 0
        phase := .write }
  else s

/-- Advance to the next pixel (42_sequencer.md R176). -/
def advance (s : State) : State :=
  { s with
    pix := s.pix + 1
    pixelsDone := s.pix + 1
    sp := s.sp + 4
    byteIdx := 0
    phase := .read }

/-- What follows a byte written: `dp` and `j` move, and the last byte of a pixel advances (R175). -/
def afterWrite (s : State) : State :=
  let s1 := { s with dp := s.dp + 1, byteIdx := s.byteIdx + 1 }
  if s1.byteIdx.toNat = s1.lat.bppp.toNat then advance s1 else s1

/-- Whether a race has left the output of the current pixel free (20_memory.md R69, entry 8). -/
def pixelRaced (s : State) : Bool := s.raced.contains s.pix.toNat

/-- The engine's write step (R175, R179): `out[j]`, or a free byte for a pixel a race has left free. -/
def writeStep (s : State) : Host.Outcome State Fault Refusal :=
  match s.out[s.byteIdx.toNat]? with
  | none => .fault .noHeldByte
  | some v =>
    if pixelRaced s then
      match memWriteByte s.dp (Config.freeByte s.draws) { s with draws := s.draws + 1 } with
      | none => .next (raiseAbort .busWrite s.dp s)
      | some s1 => .next (afterWrite s1)
    else
      match memWriteByte s.dp v s with
      | none => .next (raiseAbort .busWrite s.dp s)
      | some s1 => .next (afterWrite s1)

/-- The engine's completion (42_sequencer.md R177). -/
def completeStep (s : State) : State := { s with engine := .done }

end Sys2Proof.Machine
end

