-- ==== Sys2Proof/Machine/Commands.lean ====
section
/-! DEFINITION. The four CTRL commands, 40_host_ops.md R136 to R139. `rest` is `DATA[31:2]`, which is ignored. -/

namespace Sys2Proof.Machine

/-- CTRL_NOP (R136). -/
def execCtrlNop (_rest : BitVec 30) (s : State) : Host.Outcome State Fault Refusal :=
  .next (respond .done s)

/-- CTRL_START (R137). -/
def execCtrlStart (_rest : BitVec 30) (s : State) : Host.Outcome State Fault Refusal :=
  .next (respond .done (commandStart s))

/-- CTRL_CLEAR (R138). -/
def execCtrlClear (_rest : BitVec 30) (s : State) : Host.Outcome State Fault Refusal :=
  .next (respond .done (commandClear s))

/-- CTRL_CLEAR_START (R139): CLEAR in the state as it stands, then START in the state CLEAR left. -/
def execCtrlClearStart (_rest : BitVec 30) (s : State) : Host.Outcome State Fault Refusal :=
  .next (respond .done (commandStart (commandClear s)))

end Sys2Proof.Machine
end

