-- ==== Sys2Proof/Machine/HostReads.lean ====
section
/-! DEFINITION. The register reads, 40_host_ops.md R101 to R118, and the read of a reserved offset, R140. -/

namespace Sys2Proof.Machine

/-- A register read: the answer is the register's value and nothing else changes (20_memory.md R64). -/
def hostRead (r : RegName) (s : State) : Host.Outcome State Fault Refusal :=
  .next (respond (.data (readReg s r)) s)

/-- RD_SRC_CFG (R101). -/
def execRdSrcCfg (s : State) : Host.Outcome State Fault Refusal := hostRead .srcCfg s

/-- RD_SRC_MAX_RG (R102). -/
def execRdSrcMaxRG (s : State) : Host.Outcome State Fault Refusal := hostRead .srcMaxRG s

/-- RD_SRC_MAX_B (R103). -/
def execRdSrcMaxB (s : State) : Host.Outcome State Fault Refusal := hostRead .srcMaxB s

/-- RD_SRC_SHIFT (R104). -/
def execRdSrcShift (s : State) : Host.Outcome State Fault Refusal := hostRead .srcShift s

/-- RD_DST_CFG (R105). -/
def execRdDstCfg (s : State) : Host.Outcome State Fault Refusal := hostRead .dstCfg s

/-- RD_DST_MAX_RG (R106). -/
def execRdDstMaxRG (s : State) : Host.Outcome State Fault Refusal := hostRead .dstMaxRG s

/-- RD_DST_MAX_B (R107). -/
def execRdDstMaxB (s : State) : Host.Outcome State Fault Refusal := hostRead .dstMaxB s

/-- RD_DST_SHIFT (R108). -/
def execRdDstShift (s : State) : Host.Outcome State Fault Refusal := hostRead .dstShift s

/-- RD_BPPP (R109). -/
def execRdBppp (s : State) : Host.Outcome State Fault Refusal := hostRead .bppp s

/-- RD_LEN (R110). -/
def execRdLen (s : State) : Host.Outcome State Fault Refusal := hostRead .len s

/-- RD_SRC_ADDR (R111). -/
def execRdSrcAddr (s : State) : Host.Outcome State Fault Refusal := hostRead .srcAddr s

/-- RD_DST_ADDR (R112). -/
def execRdDstAddr (s : State) : Host.Outcome State Fault Refusal := hostRead .dstAddr s

/-- RD_CTRL (R113). -/
def execRdCtrl (s : State) : Host.Outcome State Fault Refusal := hostRead .ctrl s

/-- RD_STATUS (R114). -/
def execRdStatus (s : State) : Host.Outcome State Fault Refusal := hostRead .status s

/-- RD_IRQ_EN (R115). -/
def execRdIrqEn (s : State) : Host.Outcome State Fault Refusal := hostRead .irqEn s

/-- RD_PIXELS_DONE (R116). -/
def execRdPixelsDone (s : State) : Host.Outcome State Fault Refusal := hostRead .pixelsDone s

/-- RD_FAULT_ADDR (R117). -/
def execRdFaultAddr (s : State) : Host.Outcome State Fault Refusal := hostRead .faultAddr s

/-- RD_ID (R118). -/
def execRdId (s : State) : Host.Outcome State Fault Refusal := hostRead .id s

/-- RD_RSVD (R140): a reserved offset reads 0, whichever it is. -/
def execRdRsvd (_off : Offset) (s : State) : Host.Outcome State Fault Refusal :=
  .next (respond (.data 0) s)

end Sys2Proof.Machine
end

