-- ==== Sys2Proof/Machine/HostWrites.lean ====
section
/-! DEFINITION. The register writes, 40_host_ops.md R119 to R135, and the write to a reserved offset, R141. -/

namespace Sys2Proof.Machine

/-- A register write: the field bits are stored, and the access completes normally. -/
def hostWrite (r : RegName) (d : Word) (s : State) : Host.Outcome State Fault Refusal :=
  .next (respond .done (writeReg r d s))

/-- WR_SRC_CFG (R119). -/
def execWrSrcCfg (data : Word) (s : State) : Host.Outcome State Fault Refusal := hostWrite .srcCfg data s

/-- WR_SRC_MAX_RG (R120). -/
def execWrSrcMaxRG (data : Word) (s : State) : Host.Outcome State Fault Refusal := hostWrite .srcMaxRG data s

/-- WR_SRC_MAX_B (R121). -/
def execWrSrcMaxB (data : Word) (s : State) : Host.Outcome State Fault Refusal := hostWrite .srcMaxB data s

/-- WR_SRC_SHIFT (R122). -/
def execWrSrcShift (data : Word) (s : State) : Host.Outcome State Fault Refusal := hostWrite .srcShift data s

/-- WR_DST_CFG (R123). -/
def execWrDstCfg (data : Word) (s : State) : Host.Outcome State Fault Refusal := hostWrite .dstCfg data s

/-- WR_DST_MAX_RG (R124). -/
def execWrDstMaxRG (data : Word) (s : State) : Host.Outcome State Fault Refusal := hostWrite .dstMaxRG data s

/-- WR_DST_MAX_B (R125). -/
def execWrDstMaxB (data : Word) (s : State) : Host.Outcome State Fault Refusal := hostWrite .dstMaxB data s

/-- WR_DST_SHIFT (R126). -/
def execWrDstShift (data : Word) (s : State) : Host.Outcome State Fault Refusal := hostWrite .dstShift data s

/-- WR_BPPP (R127). -/
def execWrBppp (data : Word) (s : State) : Host.Outcome State Fault Refusal := hostWrite .bppp data s

/-- WR_LEN (R128). -/
def execWrLen (data : Word) (s : State) : Host.Outcome State Fault Refusal := hostWrite .len data s

/-- WR_SRC_ADDR (R129). -/
def execWrSrcAddr (data : Word) (s : State) : Host.Outcome State Fault Refusal := hostWrite .srcAddr data s

/-- WR_DST_ADDR (R130). -/
def execWrDstAddr (data : Word) (s : State) : Host.Outcome State Fault Refusal := hostWrite .dstAddr data s

/-- WR_IRQ_EN (R131). -/
def execWrIrqEn (data : Word) (s : State) : Host.Outcome State Fault Refusal := hostWrite .irqEn data s

/-- WR_STATUS (R132). -/
def execWrStatus (data : Word) (s : State) : Host.Outcome State Fault Refusal := hostWrite .status data s

/-- WR_PIXELS_DONE (R133). -/
def execWrPixelsDone (data : Word) (s : State) : Host.Outcome State Fault Refusal := hostWrite .pixelsDone data s

/-- WR_FAULT_ADDR (R134). -/
def execWrFaultAddr (data : Word) (s : State) : Host.Outcome State Fault Refusal := hostWrite .faultAddr data s

/-- WR_ID (R135). -/
def execWrId (data : Word) (s : State) : Host.Outcome State Fault Refusal := hostWrite .id data s

/-- WR_RSVD (R141): no state of the block changes. -/
def execWrRsvd (_off : Offset) (_data : Word) (s : State) : Host.Outcome State Fault Refusal :=
  .next (respond .done s)

end Sys2Proof.Machine
end

