-- ==== Sys2Proof/Machine/PackModes.lean ====
section
/-! DEFINITION. The pack modes, 41_datapath.md R157 to R160: the operation `L.bppp` selects in the engine's read step
(42_sequencer.md R174), which is where the selected packer runs (entry 12). -/

namespace Sys2Proof.Machine

/-- PACK1 (R157). -/
def execPack1 (s : State) : Host.Outcome State Fault Refusal := .next (readStep packOne s)

/-- PACK2 (R158). -/
def execPack2 (s : State) : Host.Outcome State Fault Refusal := .next (readStep packTwo s)

/-- PACK3 (R159). -/
def execPack3 (s : State) : Host.Outcome State Fault Refusal := .next (readStep packThree s)

/-- PACK_INVALID (R160): the abort `BPPP_INVALID`, with no memory access. -/
def execPackInvalid (_bppp : Byte) (s : State) : Host.Outcome State Fault Refusal :=
  .next (raiseAbort .bpppInvalid 0 s)

end Sys2Proof.Machine
end

