-- ==== Sys2Proof/Machine/Dispatch.lean ====
section
/-! DEFINITION. The meaning of each operation, one arm a constructor. -/

namespace Sys2Proof.Machine

def exec (i : Instr) (s : State) : Host.Outcome State Fault Refusal :=
  match i with
  | .rdSrcCfg => Sys2Proof.Machine.execRdSrcCfg s
  | .rdSrcMaxRG => Sys2Proof.Machine.execRdSrcMaxRG s
  | .rdSrcMaxB => Sys2Proof.Machine.execRdSrcMaxB s
  | .rdSrcShift => Sys2Proof.Machine.execRdSrcShift s
  | .rdDstCfg => Sys2Proof.Machine.execRdDstCfg s
  | .rdDstMaxRG => Sys2Proof.Machine.execRdDstMaxRG s
  | .rdDstMaxB => Sys2Proof.Machine.execRdDstMaxB s
  | .rdDstShift => Sys2Proof.Machine.execRdDstShift s
  | .rdBppp => Sys2Proof.Machine.execRdBppp s
  | .rdLen => Sys2Proof.Machine.execRdLen s
  | .rdSrcAddr => Sys2Proof.Machine.execRdSrcAddr s
  | .rdDstAddr => Sys2Proof.Machine.execRdDstAddr s
  | .rdCtrl => Sys2Proof.Machine.execRdCtrl s
  | .rdStatus => Sys2Proof.Machine.execRdStatus s
  | .rdIrqEn => Sys2Proof.Machine.execRdIrqEn s
  | .rdPixelsDone => Sys2Proof.Machine.execRdPixelsDone s
  | .rdFaultAddr => Sys2Proof.Machine.execRdFaultAddr s
  | .rdId => Sys2Proof.Machine.execRdId s
  | .wrSrcCfg data => Sys2Proof.Machine.execWrSrcCfg data s
  | .wrSrcMaxRG data => Sys2Proof.Machine.execWrSrcMaxRG data s
  | .wrSrcMaxB data => Sys2Proof.Machine.execWrSrcMaxB data s
  | .wrSrcShift data => Sys2Proof.Machine.execWrSrcShift data s
  | .wrDstCfg data => Sys2Proof.Machine.execWrDstCfg data s
  | .wrDstMaxRG data => Sys2Proof.Machine.execWrDstMaxRG data s
  | .wrDstMaxB data => Sys2Proof.Machine.execWrDstMaxB data s
  | .wrDstShift data => Sys2Proof.Machine.execWrDstShift data s
  | .wrBppp data => Sys2Proof.Machine.execWrBppp data s
  | .wrLen data => Sys2Proof.Machine.execWrLen data s
  | .wrSrcAddr data => Sys2Proof.Machine.execWrSrcAddr data s
  | .wrDstAddr data => Sys2Proof.Machine.execWrDstAddr data s
  | .wrIrqEn data => Sys2Proof.Machine.execWrIrqEn data s
  | .wrStatus data => Sys2Proof.Machine.execWrStatus data s
  | .wrPixelsDone data => Sys2Proof.Machine.execWrPixelsDone data s
  | .wrFaultAddr data => Sys2Proof.Machine.execWrFaultAddr data s
  | .wrId data => Sys2Proof.Machine.execWrId data s
  | .ctrlNop rest => Sys2Proof.Machine.execCtrlNop rest s
  | .ctrlStart rest => Sys2Proof.Machine.execCtrlStart rest s
  | .ctrlClear rest => Sys2Proof.Machine.execCtrlClear rest s
  | .ctrlClearStart rest => Sys2Proof.Machine.execCtrlClearStart rest s
  | .rdRsvd off => Sys2Proof.Machine.execRdRsvd off s
  | .wrRsvd off data => Sys2Proof.Machine.execWrRsvd off data s
  | .pack1 => Sys2Proof.Machine.execPack1 s
  | .pack2 => Sys2Proof.Machine.execPack2 s
  | .pack3 => Sys2Proof.Machine.execPack3 s
  | .packInvalid bppp => Sys2Proof.Machine.execPackInvalid bppp s

end Sys2Proof.Machine
end

