-- ==== Sys2Proof/Machine/Inputs.lean ====
section
/-! DEFINITION. What moves next (00_scope.md R14), and the steps that are no row of the opcode table: outside memory
accesses and their races (20_memory.md R69), illegal accesses (40_host_ops.md R142), reset (70_reset_and_hazards.md
R220, R221), and the choice of the engine's step. -/

namespace Sys2Proof.Machine

/-- The pixel of the running conversion whose source word holds address `a`. -/
def srcPixelOf (L : Latched) (a : Addr) : Option Nat :=
  if L.srcAddr.toNat ≤ a.toNat ∧ a.toNat < srcEnd L.srcAddr L.len then
    some ((a.toNat - L.srcAddr.toNat) / 4)
  else none

/-- The pixel of the running conversion whose packed bytes hold address `a`. -/
def dstPixelOf (L : Latched) (a : Addr) : Option Nat :=
  if L.dstAddr.toNat ≤ a.toNat ∧ a.toNat < dstEnd L.dstAddr L.len L.bppp then
    some ((a.toNat - L.dstAddr.toNat) / L.bppp.toNat)
  else none

/-- The pixel an outside access to `a` races with (20_memory.md R69). -/
def racedPixel (L : Latched) (a : Addr) : Option Nat :=
  match srcPixelOf L a with
  | some k => some k
  | none => dstPixelOf L a

/-- The address of the first packed byte of pixel `k` (42_sequencer.md R180). -/
def pixelDst (L : Latched) (k : Nat) : Addr := L.dstAddr + BitVec.ofNat 32 (L.bppp.toNat * k)

/-- An outside read of a byte: a destination byte of the running conversion answers any value
(20_memory.md R69), every other byte its value. DESIGN CHOICE, entry 27: after the engine has reached DONE or
ABORTED and before the host has read STATUS, where R67 item 3, R70 and 70_reset_and_hazards.md R227 promise
nothing, a destination byte answers what the engine has written. -/
def outsideRead (a : Addr) (s : State) : State :=
  if s.engine = .busy ∧ (dstPixelOf s.lat a).isSome then
    { s with resp := .byte (Config.freeByte s.draws), draws := s.draws + 1 }
  else { s with resp := .byte (byteAt s a) }

/-- An outside write that races with pixel `k`: the byte written and the pixel's output bytes are any
value, now and when the engine comes to write them (20_memory.md R69, entry 8). -/
def racingWrite (k : Nat) (a : Addr) (s : State) : State :=
  { s with
    mem := Memory.freeRange (pixelDst s.lat k) (s.draws + 1) s.lat.bppp.toNat
      (s.mem.set a.toNat (Config.freeByte s.draws))
    raced := if s.raced.contains k then s.raced else k :: s.raced
    draws := s.draws + 1 + s.lat.bppp.toNat
    resp := .done }

/-- An outside write of a byte (20_memory.md R54, R69). Once STATE is not BUSY it is no race, also before the
host has read STATUS (DESIGN CHOICE, entry 27). -/
def outsideWrite (a : Addr) (v : Byte) (s : State) : State :=
  match (if s.engine = .busy then racedPixel s.lat a else none) with
  | some k => racingWrite k a s
  | none => respond .done (storeByte a v s)

/-- How many destination bytes a reset abandons: those of the running conversion, if there is one. -/
def abandonedBytes (s : State) : Nat :=
  if s.engine = .busy then s.lat.bppp.toNat * s.lat.len.toNat else 0

/-- Reset (70_reset_and_hazards.md R220, R221): the register block and the hidden state as State.reset
has them, memory kept but for the destination bytes of an abandoned conversion, which are any value.
The platform and the pending inputs are outside the block. -/
def resetBlock (s : State) : State :=
  { State.reset with
    mem := Memory.freeRange s.lat.dstAddr s.draws (abandonedBytes s) s.mem
    plat := s.plat
    inputs := s.inputs
    draws := s.draws + abandonedBytes s }

/-- What a step comes to: an operation of the table to be executed in a state, or an outcome. -/
inductive Fetched where
  | run (i : Instr) (s : State)
  | other (o : Host.Outcome State Fault Refusal)

/-- A host access: outside the window it does not reach the block (entry 15); illegal, it changes no
state and is answered with a bus error (40_host_ops.md R142); legal, its transaction word is decoded. -/
def serveAccess (a : HostAccess) (s : State) : Fetched :=
  match windowOffset s.plat a.addr with
  | none => .other (.next (respond .none s))
  | some off =>
    if legalAccess off a.bytes then
      match decode (.mmio (accessWord off a)) with
      | .ok i => .run i s
      | .error _ => .other (.next (respond .busError s))
    else .other (.next (respond .busError s))

/-- An input, in the state without it. -/
def serveInput (x : Input) (s : State) : Fetched :=
  match x with
  | .access a => serveAccess a s
  | .memRead a => .other (.next (outsideRead a s))
  | .memWrite a v => .other (.next (outsideWrite a v s))
  | .reset => .other (.next (resetBlock s))

/-- The engine's step while BUSY (42_sequencer.md R174 to R177): the read step runs the operation that
the latched width selects (30_encoding.md R87). -/
def engineTurn (s : State) : Fetched :=
  match s.phase with
  | .write => .other (writeStep s)
  | .read =>
    if s.pix.toNat < s.lat.len.toNat then .run (decodePack s.lat.bppp) s
    else if s.pix = s.lat.len then .other (.next (completeStep s))
    else .other (.fault .noEngineStep)

/-- What moves next. While BUSY the engine takes the steps that the next input waits for, and moves
freely when none is pending; otherwise the next input is served, and with none the block waits
(42_sequencer.md R174 to R177, 60_exceptions.md R207; entry 6). -/
def fetchNext (s : State) : Fetched :=
  match s.inputs with
  | [] => if s.engine = .busy then engineTurn s else .other (.next s)
  | x :: rest =>
    if s.engine = .busy ∧ x.after ≠ 0 then
      engineTurn { s with inputs := { after := x.after - 1, act := x.act } :: rest }
    else serveInput x.act { s with inputs := rest }

/-- A legal host access at once, for a transaction word (30_encoding.md R75): the pending inputs follow. -/
def placeTransaction (t : TransWord) (s : State) : State :=
  { s with
    inputs :=
      { after := 0
        act := .access { write := transW t, addr := ppBase s.plat + (transOff t).toNat, bytes := 4,
                         data := transData t } } :: s.inputs }

/-- The pending inputs wait for one engine step more. -/
def deferInputs : List TimedInput → List TimedInput
  | [] => []
  | x :: rest => { after := x.after + 1, act := x.act } :: rest

/-- The engine at a read step with latched width `b`; a pixel is left to convert (entry 17). -/
def placeWidth (b : Byte) (s : State) : State :=
  { s with
    engine := .busy
    phase := .read
    pix := if s.pix.toNat < s.lat.len.toNat then s.pix else 0
    lat := { s.lat with
      bppp := b
      len := if s.pix.toNat < s.lat.len.toNat then s.lat.len else 1 }
    inputs := deferInputs s.inputs }

/-- A word of the opcode table stored where the next step fetches its operation. -/
def placeCode (c : Code) (s : State) : State :=
  match c with
  | .mmio t => placeTransaction t s
  | .pack b => placeWidth b s

end Sys2Proof.Machine
end

