-- ==== Sys2Proof/Machine/Step.lean ====
section
/-! DEFINITION. One step of the machine: one input, or one step of the engine (00_scope.md R14). -/

namespace Sys2Proof.Machine

/-- The step: what moves next, and where that is an operation of the table, its meaning. -/
def step (s : State) : Host.Outcome State Fault Refusal :=
  match fetchNext s with
  | .run i s1 => exec i s1
  | .other o => o

/-- `s` with the table word `w` of `nbits` bits placed so that the very next step runs it (entries 5
and 17); a number that is no table word changes nothing. -/
def State.withFetchWord (s : State) (nbits w : Nat) : State :=
  match codeOfTableWord nbits w with
  | some c => placeCode c s
  | none => s

end Sys2Proof.Machine
end

