-- ==== Sys2Proof/Safety.lean ====
section
/-! DEFINITION. The contract of a START in the words of the spec, the invariant of the machine, and what a run that does
not stop is. -/

namespace Sys2Proof.Machine

/-- The preconditions of 42_sequencer.md R171 on the formats and the width (codes 1 to 7 do not apply). -/
abbrev FormatsAccepted (src dst : PixelFormat) (bppp : Byte) : Prop :=
  src.trueColour = true ∧ src.bpp = 32 ∧ src.depth.toNat ≤ 32 ∧
  dst.trueColour = true ∧ dst.bpp.toNat ≤ 32 ∧ dst.depth.toNat ≤ 24 ∧
  (bppp = 1 ∨ bppp = 2 ∨ bppp = 3)

/-- The buffer contract of R171 (codes 8 to 11 do not apply): aligned source, both ranges below 2^32,
and no byte shared. It binds only when there is a buffer. -/
abbrev BuffersAccepted (srcAddr dstAddr : Addr) (len : Word) (bppp : Byte) : Prop :=
  len ≠ 0 →
    srcAddr.toNat % 4 = 0 ∧
    srcAddr.toNat + 4 * len.toNat ≤ 2 ^ 32 ∧
    dstAddr.toNat + bppp.toNat * len.toNat ≤ 2 ^ 32 ∧
    (dstAddr.toNat + bppp.toNat * len.toNat ≤ srcAddr.toNat ∨
      srcAddr.toNat + 4 * len.toNat ≤ dstAddr.toNat)

/-- Every check of R171 passes on the registers as they stand. -/
abbrev StartAccepted (s : State) : Prop :=
  FormatsAccepted (srcFormat s) (dstFormat s) (widthValue s) ∧
    BuffersAccepted s.srcAddr s.dstAddr s.len (widthValue s)

/-- The reserved bits of the registers are 0 (20_memory.md R53, 30_encoding.md R77 to R85). -/
abbrev ReservedBitsZero (s : State) : Prop :=
  s.srcCfg.extractLsb' 18 14 = 0 ∧ s.srcMaxB.extractLsb' 16 16 = 0 ∧
  s.srcShift.extractLsb' 24 8 = 0 ∧
  s.dstCfg.extractLsb' 18 14 = 0 ∧ s.dstMaxB.extractLsb' 16 16 = 0 ∧
  s.dstShift.extractLsb' 24 8 = 0 ∧
  s.bppp.extractLsb' 8 24 = 0 ∧ s.irqEn.extractLsb' 2 30 = 0

/-- What STATUS, FAULT_ADDR and PIXELS_DONE hold in each engine state (10_state.md R33, R36, R38;
60_exceptions.md R192, R194). -/
structure RecordOk (s : State) : Prop where
  noCause : s.engine ≠ .aborted → s.cause = .none ∧ s.faultAddr = 0
  aCause : s.engine = .aborted → s.cause ≠ .none
  idleCount : s.engine = .idle → s.pixelsDone = 0
  doneCount : s.engine = .done → s.pixelsDone = s.lat.len
  startAbort : s.engine = .aborted → s.cause ≠ .busRead → s.cause ≠ .busWrite → s.pixelsDone = 0
  readAbort : s.engine = .aborted → s.cause = .busRead →
    s.faultAddr = s.lat.srcAddr + 4 * s.pixelsDone
  writeAbort : s.engine = .aborted → s.cause = .busWrite →
    s.byteIdx.toNat < s.lat.bppp.toNat ∧
    s.faultAddr = s.lat.dstAddr + s.lat.bppp.setWidth 32 * s.pixelsDone + s.byteIdx.setWidth 32

/-- The running conversion: the latched arguments were accepted, the derived values are those of the
latch, and the cursors stand where 10_state.md R41 says. -/
structure BusyOk (s : State) : Prop where
  formats : FormatsAccepted s.lat.src s.lat.dst s.lat.bppp
  buffers : BuffersAccepted s.lat.srcAddr s.lat.dstAddr s.lat.len s.lat.bppp
  srcWidths : s.lat.srcBits = s.lat.src.max.map channelWidth
  dstWidths : s.lat.dstBits = s.lat.dst.max.map channelWidth
  shifts : s.lat.effShift = effectiveShifts s.lat.bppp s.lat.dst
  bound : s.pix.toNat ≤ s.lat.len.toNat
  mirror : s.pixelsDone = s.pix
  source : s.sp = s.lat.srcAddr + 4 * s.pix
  destination : s.dp = s.lat.dstAddr + s.lat.bppp.setWidth 32 * s.pix + s.byteIdx.setWidth 32
  reading : s.phase = .read → s.byteIdx = 0
  writing : s.phase = .write → s.pix.toNat < s.lat.len.toNat ∧
    s.byteIdx.toNat < s.lat.bppp.toNat ∧ s.out.length = s.lat.bppp.toNat

/-- The invariant of the machine. -/
structure Inv (s : State) : Prop where
  reserved : ReservedBitsZero s
  record : RecordOk s
  conversion : s.engine = .busy → BusyOk s
  memory : s.mem.wf = true

/-- The machine does not stop at this state: it has a next state, neither a fault nor a refusal. -/
def Steps (s : State) : Prop := ∃ t, step s = .next t

/-- The machine does not stop within `n` steps. -/
def RunsFor (n : Nat) (s : State) : Prop := ∃ t, Sys2Proof.core.run n s = .next t

end Sys2Proof.Machine
end

