-- ==== Sys2Proof/Certificates/Slice0/Obligations.lean ====
section
/-! DEFINITION. The statements about the model, one `def Obligations.<Name> : Prop` each, from the numbered rules of spec/. -/

open Sys2Proof Sys2Proof.Machine

namespace Sys2Proof.Spec

/-- A read row of the opcode table: every word that matches under the mask is the read, and the read
answers `v s` and changes nothing else. -/
def ReadsAs (m : TransWord) (i : Instr) (v : State → Word) : Prop :=
  (∀ t : TransWord, t &&& 0x1fff00000000#45 = m → decode (.mmio t) = .ok i) ∧
  ∀ s, exec i s = .next { s with resp := .data (v s) }

/-- A write row of the opcode table: every word that matches under the mask is the write of its DATA,
and the write makes the change `f` and completes. -/
def WritesAs (m : TransWord) (i : Word → Instr) (f : Word → State → State) : Prop :=
  (∀ t : TransWord, t &&& 0x1fff00000000#45 = m → decode (.mmio t) = .ok (i (t.extractLsb' 0 32))) ∧
  ∀ d s, exec (i d) s = .next { f d s with resp := .done }

/-- A CTRL row of the opcode table, whose DATA[31:2] is ignored. -/
def CommandRow (m : TransWord) (i : BitVec 30 → Instr) : Prop :=
  (∀ t : TransWord, t &&& 0x1fff00000003#45 = m → decode (.mmio t) = .ok (i (t.extractLsb' 2 30))) ∧
  ∀ r r' s, exec (i r) s = exec (i r') s

/-- The state an accepted START leaves (42_sequencer.md R171, R172). -/
def started (s : State) : State :=
  { s with
    lat := latchedOf s, pix := 0, byteIdx := 0, phase := .read, sp := s.srcAddr, dp := s.dstAddr
    pixelsDone := 0, cause := .none, faultAddr := 0, engine := .busy, raced := [], resp := .done }

/-- The START checks of 42_sequencer.md R171 in their order: whether each fails on the registers, its
cause and its FAULT_ADDR (60_exceptions.md R191). -/
def checks (s : State) : List (Bool × Cause × Addr) :=
  let S := s.srcAddr.toNat
  let D := s.dstAddr.toNat
  let n := s.len.toNat
  let b := (s.bppp.extractLsb' 0 8).toNat
  let buffer := decide (0 < n)
  [ (!s.srcCfg.getLsbD 17, .srcNotTruecolour, 0),
    (decide ((s.srcCfg.extractLsb' 0 8).toNat ≠ 32), .srcBpp, 0),
    (decide ((s.srcCfg.extractLsb' 8 8).toNat > 32), .srcDepth, 0),
    (!s.dstCfg.getLsbD 17, .dstNotTruecolour, 0),
    (decide ((s.dstCfg.extractLsb' 0 8).toNat > 32), .dstBpp, 0),
    (decide ((s.dstCfg.extractLsb' 8 8).toNat > 24), .dstDepth, 0),
    (decide (¬(1 ≤ b ∧ b ≤ 3)), .bpppInvalid, 0),
    (buffer && decide (S % 4 ≠ 0), .srcMisaligned, s.srcAddr),
    (buffer && decide (S + 4 * n > 2 ^ 32), .srcRange, s.srcAddr),
    (buffer && decide (D + b * n > 2 ^ 32), .dstRange, s.dstAddr),
    (buffer && decide (S < D + b * n ∧ D < S + 4 * n), .alias_, s.dstAddr) ]

/-- The channel value of one lane, extracted, rescaled and positioned (41_datapath.md R161). -/
def lane (px : Word) (shift : Byte) (max : BitVec 16) (srcBits dstBits : BitVec 5) (eff : Byte) : Word :=
  ((((px >>> shift.toNat) &&& max.setWidth 32) <<< dstBits.toNat) >>> srcBits.toNat) <<< eff.toNat

/-- `cpx` of 41_datapath.md R161. -/
def cpx (L : Latched) (px : Word) : Word :=
  lane px L.src.shift.r L.src.max.r L.srcBits.r L.dstBits.r L.effShift.r |||
  lane px L.src.shift.g L.src.max.g L.srcBits.g L.dstBits.g L.effShift.g |||
  lane px L.src.shift.b L.src.max.b L.srcBits.b L.dstBits.b L.effShift.b

/-- The address of source word `k` of the conversion the registers describe. -/
def srcWordAddr (s : State) (k : Nat) : Addr := s.srcAddr + BitVec.ofNat 32 (4 * k)

/-- The address of byte `j` of packed pixel `k` of the conversion the registers describe. -/
def dstByteAddr (s : State) (k j : Nat) : Addr :=
  s.dstAddr + BitVec.ofNat 32 ((widthValue s).toNat * k + j)

/-- Byte `j` of packed pixel `k` (42_sequencer.md R180): `CONVERT_PIXEL(px_k)[j]` of the word read in `s`. -/
def packedByte (s : State) (k j : Nat) : Option Byte :=
  (convertPixel (latchedOf s) (wordAt s (srcWordAddr s k)))[j]?

/-- A START in `s` is accepted, nothing else is pending, and memory is in its canonical form. -/
def AloneFrom (s : State) : Prop :=
  (s.engine = .idle ∨ s.engine = .done) ∧ StartAccepted s ∧ s.inputs = [] ∧ s.mem.wf = true

/-- Every access of pixel `k` completes. -/
def PixelOk (s : State) (k : Nat) : Prop :=
  wordOk s.plat (srcWordAddr s k) = true ∧
  ∀ j < (widthValue s).toNat, memOk s.plat (dstByteAddr s k j) = true

/-- The registers of the block and the latched configuration of `t` are those a START in `s` left. -/
def SameConfiguration (s t : State) : Prop :=
  t.srcCfg = s.srcCfg ∧ t.srcMaxRG = s.srcMaxRG ∧ t.srcMaxB = s.srcMaxB ∧ t.srcShift = s.srcShift ∧
  t.dstCfg = s.dstCfg ∧ t.dstMaxRG = s.dstMaxRG ∧ t.dstMaxB = s.dstMaxB ∧ t.dstShift = s.dstShift ∧
  t.bppp = s.bppp ∧ t.len = s.len ∧ t.srcAddr = s.srcAddr ∧ t.dstAddr = s.dstAddr ∧
  t.irqEn = s.irqEn ∧ t.lat = latchedOf s ∧ t.plat = s.plat

/-- Whether a register is one that a host write changes (10_state.md R39, access RW). -/
def writable : RegName → Bool
  | .ctrl | .status | .pixelsDone | .faultAddr | .id => false
  | _ => true

/-- The input that is served at a step: the engine is not BUSY, or the input waits for no step of it. -/
def Served (s : State) (x : Input) (rest : List TimedInput) : Prop :=
  ∃ n, s.inputs = { after := n, act := x } :: rest ∧ (s.engine ≠ .busy ∨ n = 0)

/-- The engine moves at this step, and `rest` is what is pending after it: nothing, or the inputs with one
engine step fewer to wait for (entry 6). -/
def EngineMoves (s : State) (rest : List TimedInput) : Prop :=
  (s.inputs = [] ∧ rest = []) ∨
  ∃ n x tail, s.inputs = { after := n + 1, act := x } :: tail ∧ rest = { after := n, act := x } :: tail

/-- Every run from `u` of fewer than `n` steps is still BUSY. -/
def BusyBefore (n : Nat) (u : State) : Prop :=
  ∀ m < n, ∃ v, Sys2Proof.core.run m u = .next v ∧ v.engine = .busy

/-- A legal host access in the window is served, and its transaction word decodes to `i`. -/
def ServesOperation (s : State) (i : Instr) : Prop :=
  ∃ a rest off, Served s (.access a) rest ∧ windowOffset s.plat a.addr = some off ∧
    legalAccess off a.bytes = true ∧ decode (.mmio (accessWord off a)) = .ok i

/-- The host operations are the `mmio` rows; the pack modes are the engine's. -/
def isHostOp : Instr → Bool
  | .pack1 | .pack2 | .pack3 | .packInvalid _ => false
  | _ => true

end Sys2Proof.Spec

open Sys2Proof.Spec

/-! ### Encoding and the step -/

/-- 30_encoding.md R75, R83, R87, R89: no bit of an encoding is dropped. -/
def Obligations.DecodeOfEncodeIsTheInstruction : Prop :=
  ∀ i : Instr, i.wf = true → decode (encode i) = .ok i

/-- 30_encoding.md R75, R89, R90: a word whose offset is a multiple of 4 is a row's, and a write's
word is got back from the operation (a read's with its DATA 0); any other word is refused. That a read
with DATA is the read: entry 10. -/
def Obligations.EveryLegalTransactionWordIsARow : Prop :=
  ∀ t : TransWord,
    (t.extractLsb' 32 2 = 0 →
      ∃ i, decode (.mmio t) = .ok i ∧ i.wf = true ∧
        encode i = .mmio (if t.getLsbD 44 then t else t &&& 0x1fff00000000#45)) ∧
    (t.extractLsb' 32 2 ≠ 0 → decode (.mmio t) = .error .misalignedOffset)

/-- 30_encoding.md R83. -/
def Obligations.CtrlWordsDecodeByTheirTwoBits : Prop :=
  CommandRow 0x103000000000 Instr.ctrlNop ∧
  CommandRow 0x103000000001 Instr.ctrlStart ∧
  CommandRow 0x103000000002 Instr.ctrlClear ∧
  CommandRow 0x103000000003 Instr.ctrlClearStart ∧
  ∀ s, exec .rdCtrl s = .next { s with resp := .data 0 }

/-- 30_encoding.md R87. -/
def Obligations.PackModeDecodesByLatchedWidth : Prop :=
  decode (.pack 1) = .ok .pack1 ∧ decode (.pack 2) = .ok .pack2 ∧ decode (.pack 3) = .ok .pack3 ∧
  ∀ b : Byte, b.toNat = 0 ∨ 4 ≤ b.toNat → decode (.pack b) = .ok (.packInvalid b)

/-- The transaction words that 40_host_ops.md and 95_test_vectors.md print. -/
def Obligations.PrintedWordsDecode : Prop :=
  decode (.mmio 0x100000021820) = .ok (.wrSrcCfg 0x00021820) ∧
  decode (.mmio 0x1014003f001f) = .ok (.wrDstMaxRG 0x003F001F) ∧
  decode (.mmio 0x102400000002) = .ok (.wrLen 2) ∧
  decode (.mmio 0x103000000001) = .ok (.ctrlStart 0) ∧
  decode (.mmio 0x003400000000) = .ok .rdStatus ∧
  decode (.mmio 0x0ffc00000000) = .ok (.rdRsvd 0xFFC) ∧
  decode (.mmio 0x1100ffffffff) = .ok (.wrRsvd 0x100 0xFFFFFFFF)

/-- 20_memory.md R51, R52, 30_encoding.md R75: a served legal access whose word decodes to `i` runs `i`,
in the state without the input. The inputs and when they are served are the model's form: entries 5
and 6. -/
def Obligations.StepRunsTheDecodedTransaction : Prop :=
  ∀ (s : State) (a : HostAccess) (rest : List TimedInput) (off : Offset) (i : Instr),
    Served s (.access a) rest →
    a.addr = s.plat.ppPage * 0x1000 + off.toNat → a.bytes = 4 → off.toNat % 4 = 0 →
    decode (.mmio (transWord a.write off (if a.write then a.data else 0))) = .ok i →
    step s = exec i { s with inputs := rest }

/-- 30_encoding.md R87, 42_sequencer.md R174: an engine step enabled to read runs the operation that the
latched width selects; inputs that wait for engine steps wait for one fewer. That a pack mode is
executed as the read step, and the counts of the inputs, are the model's: entries 12 and 6. -/
def Obligations.StepRunsTheSelectedPackMode : Prop :=
  ∀ (s : State) (i : Instr), s.engine = .busy → s.phase = .read → s.pix.toNat < s.lat.len.toNat →
    decode (.pack s.lat.bppp) = .ok i →
    (s.inputs = [] → step s = exec i s) ∧
    ∀ n x rest, s.inputs = { after := n + 1, act := x } :: rest →
      step s = exec i { s with inputs := { after := n, act := x } :: rest }

/-- 40_host_ops.md R142, 60_exceptions.md R208. -/
def Obligations.IllegalAccessOnlyAnswersABusError : Prop :=
  ∀ (s : State) (a : HostAccess) (rest : List TimedInput) (off : Nat),
    Served s (.access a) rest → a.addr = s.plat.ppPage * 0x1000 + off → off < 0x1000 →
    a.bytes ≠ 4 ∨ off % 4 ≠ 0 →
    step s = .next { s with inputs := rest, resp := .busError }

/-! ### Register reads and writes -/

/-- 40_host_ops.md R101 to R108. -/
def Obligations.FormatRegisterReads : Prop :=
  ReadsAs 0x000000000000 .rdSrcCfg (fun s => s.srcCfg &&& 0x0003FFFF) ∧
  ReadsAs 0x000400000000 .rdSrcMaxRG (fun s => s.srcMaxRG &&& 0xFFFFFFFF) ∧
  ReadsAs 0x000800000000 .rdSrcMaxB (fun s => s.srcMaxB &&& 0x0000FFFF) ∧
  ReadsAs 0x000c00000000 .rdSrcShift (fun s => s.srcShift &&& 0x00FFFFFF) ∧
  ReadsAs 0x001000000000 .rdDstCfg (fun s => s.dstCfg &&& 0x0003FFFF) ∧
  ReadsAs 0x001400000000 .rdDstMaxRG (fun s => s.dstMaxRG &&& 0xFFFFFFFF) ∧
  ReadsAs 0x001800000000 .rdDstMaxB (fun s => s.dstMaxB &&& 0x0000FFFF) ∧
  ReadsAs 0x001c00000000 .rdDstShift (fun s => s.dstShift &&& 0x00FFFFFF)

/-- 40_host_ops.md R109 to R113 and R115 to R118. -/
def Obligations.ArgumentAndControlRegisterReads : Prop :=
  ReadsAs 0x002000000000 .rdBppp (fun s => s.bppp &&& 0x000000FF) ∧
  ReadsAs 0x002400000000 .rdLen (fun s => s.len) ∧
  ReadsAs 0x002800000000 .rdSrcAddr (fun s => s.srcAddr) ∧
  ReadsAs 0x002c00000000 .rdDstAddr (fun s => s.dstAddr) ∧
  ReadsAs 0x003000000000 .rdCtrl (fun _ => 0) ∧
  ReadsAs 0x003800000000 .rdIrqEn (fun s => s.irqEn &&& 0x00000003) ∧
  ReadsAs 0x003c00000000 .rdPixelsDone (fun s => s.pixelsDone) ∧
  ReadsAs 0x004000000000 .rdFaultAddr (fun s => s.faultAddr) ∧
  ReadsAs 0x004400000000 .rdId (fun _ => 0x504B0001)

/-- 40_host_ops.md R114, 30_encoding.md R84, 10_state.md R47, 60_exceptions.md R191. -/
def Obligations.StatusReadShowsStateIrqAndCause : Prop :=
  (∀ t : TransWord, t &&& 0x1fff00000000#45 = 0x003400000000 → decode (.mmio t) = .ok .rdStatus) ∧
  (∀ s, ∃ w : Word, exec .rdStatus s = .next { s with resp := .data w } ∧
    w.extractLsb' 0 2 = s.engine.code ∧ w.extractLsb' 8 4 = s.cause.code ∧
    (w.getLsbD 2 = true ↔
      (s.engine = .done ∧ s.irqEn.getLsbD 0 = true) ∨
      (s.engine = .aborted ∧ s.irqEn.getLsbD 1 = true)) ∧
    w &&& 0xFFFFF0F8 = 0) ∧
  [EngineState.idle, .busy, .done, .aborted].map (fun e => e.code.toNat) = [0, 1, 2, 3] ∧
  [Cause.none, .srcNotTruecolour, .srcBpp, .srcDepth, .dstNotTruecolour, .dstBpp, .dstDepth,
    .bpppInvalid, .srcMisaligned, .srcRange, .dstRange, .alias_, .busRead, .busWrite].map
    (fun c => c.code.toNat) = List.range 14

/-- 40_host_ops.md R119 to R126. -/
def Obligations.FormatRegisterWrites : Prop :=
  WritesAs 0x100000000000 Instr.wrSrcCfg (fun d s => { s with srcCfg := d &&& 0x0003FFFF }) ∧
  WritesAs 0x100400000000 Instr.wrSrcMaxRG (fun d s => { s with srcMaxRG := d }) ∧
  WritesAs 0x100800000000 Instr.wrSrcMaxB (fun d s => { s with srcMaxB := d &&& 0x0000FFFF }) ∧
  WritesAs 0x100c00000000 Instr.wrSrcShift (fun d s => { s with srcShift := d &&& 0x00FFFFFF }) ∧
  WritesAs 0x101000000000 Instr.wrDstCfg (fun d s => { s with dstCfg := d &&& 0x0003FFFF }) ∧
  WritesAs 0x101400000000 Instr.wrDstMaxRG (fun d s => { s with dstMaxRG := d }) ∧
  WritesAs 0x101800000000 Instr.wrDstMaxB (fun d s => { s with dstMaxB := d &&& 0x0000FFFF }) ∧
  WritesAs 0x101c00000000 Instr.wrDstShift (fun d s => { s with dstShift := d &&& 0x00FFFFFF })

/-- 40_host_ops.md R127 to R131. -/
def Obligations.ArgumentAndIrqEnableWrites : Prop :=
  WritesAs 0x102000000000 Instr.wrBppp (fun d s => { s with bppp := d &&& 0x000000FF }) ∧
  WritesAs 0x102400000000 Instr.wrLen (fun d s => { s with len := d }) ∧
  WritesAs 0x102800000000 Instr.wrSrcAddr (fun d s => { s with srcAddr := d }) ∧
  WritesAs 0x102c00000000 Instr.wrDstAddr (fun d s => { s with dstAddr := d }) ∧
  WritesAs 0x103800000000 Instr.wrIrqEn (fun d s => { s with irqEn := d &&& 0x00000003 })

/-- 40_host_ops.md R132 to R136, R140, R141: these accesses change no state of the block and complete
normally; the read of a reserved offset returns 0. -/
def Obligations.ReadOnlyAndReservedAccessesChangeNothing : Prop :=
  WritesAs 0x103400000000 Instr.wrStatus (fun _ s => s) ∧
  WritesAs 0x103c00000000 Instr.wrPixelsDone (fun _ s => s) ∧
  WritesAs 0x104000000000 Instr.wrFaultAddr (fun _ s => s) ∧
  WritesAs 0x104400000000 Instr.wrId (fun _ s => s) ∧
  CommandRow 0x103000000000 Instr.ctrlNop ∧
  (∀ r s, exec (.ctrlNop r) s = .next { s with resp := .done }) ∧
  (∀ t : TransWord, 0x048 ≤ (t.extractLsb' 32 12).toNat → (t.extractLsb' 32 12).toNat % 4 = 0 →
    decode (.mmio t) = .ok (if t.getLsbD 44 then .wrRsvd (t.extractLsb' 32 12) (t.extractLsb' 0 32)
      else .rdRsvd (t.extractLsb' 32 12))) ∧
  (∀ off s, exec (.rdRsvd off) s = .next { s with resp := .data 0 }) ∧
  (∀ off d s, exec (.wrRsvd off d) s = .next { s with resp := .done })

/-- 20_memory.md R52, 70_reset_and_hazards.md R224, R225: no host operation disturbs a running
conversion. -/
def Obligations.HostOperationsLeaveTheRunningConversion : Prop :=
  ∀ (i : Instr) (s : State), isHostOp i = true → s.engine = .busy →
    ∃ t, exec i s = .next t ∧ t.engine = .busy ∧ t.cause = s.cause ∧ t.faultAddr = s.faultAddr ∧
      t.pixelsDone = s.pixelsDone ∧ t.lat = s.lat ∧ t.pix = s.pix ∧ t.byteIdx = s.byteIdx ∧
      t.phase = s.phase ∧ t.sp = s.sp ∧ t.dp = s.dp ∧ t.out = s.out ∧ t.mem = s.mem ∧
      t.raced = s.raced ∧ t.draws = s.draws ∧ t.inputs = s.inputs ∧ t.plat = s.plat

/-! ### The commands -/

/-- 42_sequencer.md R171, R172, 40_host_ops.md R137: an accepted START. That it forgets the races of an
earlier conversion (`raced`) is the model's: entry 8. -/
def Obligations.AcceptedStartLatchesAndBegins : Prop :=
  ∀ (r : BitVec 30) (s : State), (s.engine = .idle ∨ s.engine = .done) → StartAccepted s →
    exec (.ctrlStart r) s = .next (started s)

/-- 42_sequencer.md R172 with the layouts 30_encoding.md R77 to R82, the widths of 41_datapath.md R152 and the
effective shifts of R154 (which `NormaliserSubtractsTheLeastShift` spells out). -/
def Obligations.LatchHoldsTheRegisterFieldsAndWidths : Prop :=
  ∀ s : State,
    let L := latchedOf s
    let ones (w : Word) (lo : Nat) := ((List.range 16).filter (fun k => w.getLsbD (lo + k))).length
    L.src.bpp = s.srcCfg.extractLsb' 0 8 ∧ L.src.depth = s.srcCfg.extractLsb' 8 8 ∧
    L.src.bigEndian = s.srcCfg.getLsbD 16 ∧ L.src.trueColour = s.srcCfg.getLsbD 17 ∧
    L.src.max = ⟨s.srcMaxRG.extractLsb' 0 16, s.srcMaxRG.extractLsb' 16 16, s.srcMaxB.extractLsb' 0 16⟩ ∧
    L.src.shift = ⟨s.srcShift.extractLsb' 0 8, s.srcShift.extractLsb' 8 8, s.srcShift.extractLsb' 16 8⟩ ∧
    L.dst.bpp = s.dstCfg.extractLsb' 0 8 ∧ L.dst.depth = s.dstCfg.extractLsb' 8 8 ∧
    L.dst.bigEndian = s.dstCfg.getLsbD 16 ∧ L.dst.trueColour = s.dstCfg.getLsbD 17 ∧
    L.dst.max = ⟨s.dstMaxRG.extractLsb' 0 16, s.dstMaxRG.extractLsb' 16 16, s.dstMaxB.extractLsb' 0 16⟩ ∧
    L.dst.shift = ⟨s.dstShift.extractLsb' 0 8, s.dstShift.extractLsb' 8 8, s.dstShift.extractLsb' 16 8⟩ ∧
    L.bppp = s.bppp.extractLsb' 0 8 ∧ L.len = s.len ∧ L.srcAddr = s.srcAddr ∧ L.dstAddr = s.dstAddr ∧
    L.srcBits.r.toNat = ones s.srcMaxRG 0 ∧ L.srcBits.g.toNat = ones s.srcMaxRG 16 ∧
    L.srcBits.b.toNat = ones s.srcMaxB 0 ∧
    L.dstBits.r.toNat = ones s.dstMaxRG 0 ∧ L.dstBits.g.toNat = ones s.dstMaxRG 16 ∧
    L.dstBits.b.toNat = ones s.dstMaxB 0 ∧
    L.effShift = effectiveShifts (s.bppp.extractLsb' 0 8) L.dst

/-- 42_sequencer.md R171, 60_exceptions.md R191, R192, R195: the first check that fails is the abort. -/
def Obligations.StartReportsTheFirstFailingCheck : Prop :=
  ∀ (r : BitVec 30) (s : State) (before after : List (Bool × Cause × Addr)) (c : Cause) (a : Addr),
    (s.engine = .idle ∨ s.engine = .done) →
    checks s = before ++ (true, c, a) :: after → (∀ x ∈ before, x.1 = false) →
    exec (.ctrlStart r) s =
      .next { s with engine := .aborted, cause := c, faultAddr := a, pixelsDone := 0, resp := .done }

/-- 42_sequencer.md R171, R172: when no check fails, a START from IDLE or DONE latches and begins; and the
checks that none fails are the contract of `StartAccepted`. That `raced` is emptied is the model's: entry 8. -/
def Obligations.StartWithNoFailingCheckIsAccepted : Prop :=
  ∀ s : State,
    ((∀ x ∈ checks s, x.1 = false) ↔ StartAccepted s) ∧
    ((s.engine = .idle ∨ s.engine = .done) → (∀ x ∈ checks s, x.1 = false) →
      ∀ r : BitVec 30, exec (.ctrlStart r) s = .next (started s))

/-- 40_host_ops.md R137, 70_reset_and_hazards.md R225, R226. -/
def Obligations.StartIsIgnoredWhenBusyOrAborted : Prop :=
  ∀ (r : BitVec 30) (s : State), (s.engine = .busy ∨ s.engine = .aborted) →
    exec (.ctrlStart r) s = .next { s with resp := .done }

/-- 40_host_ops.md R138. -/
def Obligations.ClearReturnsDoneAndAbortedToIdle : Prop :=
  CommandRow 0x103000000002 Instr.ctrlClear ∧
  ∀ (r : BitVec 30) (s : State),
    ((s.engine = .done ∨ s.engine = .aborted) →
      exec (.ctrlClear r) s =
        .next { s with engine := .idle, cause := .none, faultAddr := 0, pixelsDone := 0, resp := .done } ∧
      ∀ t, exec (.ctrlClear r) s = .next t → irqLevel t = false) ∧
    ((s.engine = .idle ∨ s.engine = .busy) → exec (.ctrlClear r) s = .next { s with resp := .done })

/-- 40_host_ops.md R139: CLEAR in the state as it stands, then START in the state CLEAR left, in one
access; and where it starts a conversion (`raced` is the model's own, entry 8). -/
def Obligations.ClearStartIsClearThenStart : Prop :=
  CommandRow 0x103000000003 Instr.ctrlClearStart ∧
  ∀ (r : BitVec 30) (s : State),
    (∃ u, exec (.ctrlClear r) s = .next u ∧ exec (.ctrlClearStart r) s = exec (.ctrlStart r) u) ∧
    (s.engine ≠ .busy → StartAccepted s → exec (.ctrlClearStart r) s = .next (started s)) ∧
    (s.engine = .busy → exec (.ctrlClearStart r) s = .next { s with resp := .done })

/-! ### The datapath -/

/-- 41_datapath.md R151: bit `k` of the extracted field is bit `s + k` of the pixel, where the max has
bit `k`; a shift of 32 or more gives 0. -/
def Obligations.ExtractTakesTheBitsOfTheMax : Prop :=
  ∀ (px : Word) (sh : Byte) (m : BitVec 16) (k : Nat),
    (extractField px sh m).getLsbD k = (px.getLsbD (sh.toNat + k) && m.getLsbD k) ∧
    (32 ≤ sh.toNat → extractField px sh m = 0) ∧ (extractField px sh m).toNat ≤ 0xFFFF

/-- 41_datapath.md R163: the left shift of the rescale drops no bit, so the rescaled value is exact. -/
def Obligations.RescaleNeverOverflows : Prop :=
  ∀ (px : Word) (sh : Byte) (m dm : BitVec 16),
    (extractField px sh m).toNat * 2 ^ (channelWidth dm).toNat < 2 ^ 32 ∧
    (rescale (extractField px sh m) (channelWidth m) (channelWidth dm)).toNat =
      (extractField px sh m).toNat * 2 ^ (channelWidth dm).toNat / 2 ^ (channelWidth m).toNat

/-- 41_datapath.md R162 item 2, R153. -/
def Obligations.RescaleIsExactForMaskMaxes : Prop :=
  ∀ (n m v : Nat), n ≤ 16 → m ≤ 16 → v < 2 ^ n →
    rescale (BitVec.ofNat 32 v) (channelWidth (BitVec.ofNat 16 (2 ^ n - 1)))
        (channelWidth (BitVec.ofNat 16 (2 ^ m - 1))) =
      if n ≤ m then BitVec.ofNat 32 v <<< (m - n) else BitVec.ofNat 32 v >>> (n - m)

/-- 41_datapath.md R162 item 1: a change inside one channel's source field, where it shares no bit with
another's, does not reach the other's positioned value. -/
def Obligations.ChannelsAreIndependent : Prop :=
  ∀ (L : Latched) (px px' : Word),
    let field (m : BitVec 16) (sh : Byte) : Word := m.setWidth 32 <<< sh.toNat
    let red := field L.src.max.r L.src.shift.r
    let green := field L.src.max.g L.src.shift.g
    let blue := field L.src.max.b L.src.shift.b
    (px &&& ~~~red = px' &&& ~~~red →
      (red &&& green = 0 → (positioned L px).g = (positioned L px').g) ∧
      (red &&& blue = 0 → (positioned L px).b = (positioned L px').b)) ∧
    (px &&& ~~~green = px' &&& ~~~green →
      (green &&& red = 0 → (positioned L px).r = (positioned L px').r) ∧
      (green &&& blue = 0 → (positioned L px).b = (positioned L px').b)) ∧
    (px &&& ~~~blue = px' &&& ~~~blue →
      (blue &&& red = 0 → (positioned L px).r = (positioned L px').r) ∧
      (blue &&& green = 0 → (positioned L px).g = (positioned L px').g))

/-- 41_datapath.md R162 item 3, on the effective shifts: with the same maxes and effective shifts that
are the source's, the composed word is the pixel on the union of the channel fields. (Where the
normaliser moves the shifts, R154, the composed word is moved with them.) -/
def Obligations.RoundTripKeepsTheChannelFields : Prop :=
  ∀ (L : Latched) (px : Word),
    L.dst.max = L.src.max → L.srcBits = L.src.max.map channelWidth →
    L.dstBits = L.dst.max.map channelWidth → L.effShift = L.src.shift →
    composedPixel L px = px &&&
      ((L.src.max.r.setWidth 32 <<< L.src.shift.r.toNat) |||
        (L.src.max.g.setWidth 32 <<< L.src.shift.g.toNat) |||
        (L.src.max.b.setWidth 32 <<< L.src.shift.b.toNat))

/-- 41_datapath.md R154. -/
def Obligations.NormaliserSubtractsTheLeastShift : Prop :=
  ∀ (bppp : Byte) (f : PixelFormat),
    let e := effectiveShifts bppp f
    let m := min f.shift.r.toNat (min f.shift.g.toNat f.shift.b.toNat)
    if bppp.toNat = 3 ∧ f.bpp.toNat = 32 ∧ f.depth.toNat ≤ 24 then
      e.r.toNat + m = f.shift.r.toNat ∧ e.g.toNat + m = f.shift.g.toNat ∧
      e.b.toNat + m = f.shift.b.toNat
    else e = f.shift

/-- 41_datapath.md R161, R157 to R159. -/
def Obligations.ConvertPixelIsTheComposition : Prop :=
  ∀ (L : Latched) (px : Word),
    let c := cpx L px
    let b0 := c.extractLsb' 0 8
    let b1 := c.extractLsb' 8 8
    let b2 := c.extractLsb' 16 8
    (L.bppp = 1 → convertPixel L px = [b0]) ∧
    (L.bppp = 2 → convertPixel L px = if L.dst.bigEndian then [b1, b0] else [b0, b1]) ∧
    (L.bppp = 3 → convertPixel L px = if L.dst.bigEndian then [b2, b1, b0] else [b0, b1, b2])

/-- 20_memory.md R56, R60: the four bytes of a source word in the native order. -/
def Obligations.SourceWordIsAssembledInNativeOrder : Prop :=
  ∀ (s : State) (a : Addr),
    let byte (k : Nat) := (byteAt s (a + BitVec.ofNat 32 k)).toNat
    (s.plat.nativeEndian = .le →
      (wordAt s a).toNat = byte 0 + 2 ^ 8 * byte 1 + 2 ^ 16 * byte 2 + 2 ^ 24 * byte 3) ∧
    (s.plat.nativeEndian = .be →
      (wordAt s a).toNat = byte 3 + 2 ^ 8 * byte 2 + 2 ^ 16 * byte 1 + 2 ^ 24 * byte 0)

/-! ### The pack modes and the engine's steps -/

/-- 42_sequencer.md R174, 41_datapath.md R157 to R159: the read step with each packer. That a pack mode
is executed as the read step is the model's reading: entry 12. -/
def Obligations.PackModesHoldThePackedBytes : Prop :=
  ∀ s : State, s.engine = .busy → s.phase = .read → s.pix.toNat < s.lat.len.toNat →
    memOk s.plat s.sp = true → memOk s.plat (s.sp + 1) = true →
    memOk s.plat (s.sp + 2) = true → memOk s.plat (s.sp + 3) = true →
    let c := cpx s.lat (wordAt s s.sp)
    let b0 := c.extractLsb' 0 8
    let b1 := c.extractLsb' 8 8
    let b2 := c.extractLsb' 16 8
    let e := s.lat.dst.bigEndian
    exec .pack1 s = .next { s with out := [b0], byteIdx := 0, phase := .write } ∧
    exec .pack2 s = .next { s with out := if e then [b1, b0] else [b0, b1], byteIdx := 0, phase := .write } ∧
    exec .pack3 s =
      .next { s with out := if e then [b2, b1, b0] else [b0, b1, b2], byteIdx := 0, phase := .write }

/-- 42_sequencer.md R178, 60_exceptions.md R192: the read step where a byte of the word fails. That a pack
mode is executed as the read step is the model's reading: entry 12. -/
def Obligations.ReadBusErrorAborts : Prop :=
  ∀ s : State, s.engine = .busy → s.phase = .read → s.pix.toNat < s.lat.len.toNat →
    (memOk s.plat s.sp = false ∨ memOk s.plat (s.sp + 1) = false ∨
      memOk s.plat (s.sp + 2) = false ∨ memOk s.plat (s.sp + 3) = false) →
    ∀ i, i = Instr.pack1 ∨ i = Instr.pack2 ∨ i = Instr.pack3 →
      exec i s = .next { s with engine := .aborted, cause := .busRead, faultAddr := s.sp }

/-- 41_datapath.md R160, 42_sequencer.md R171: PACK_INVALID is the abort BPPP_INVALID, and a START whose
formats pass and whose width selects it has that effect on the state with PIXELS_DONE 0. That
PACK_INVALID aborts in every state it is executed in is the model's reading: entry 12. -/
def Obligations.PackInvalidIsTheWidthAbort : Prop :=
  (∀ b s, exec (.packInvalid b) s =
    .next { s with engine := .aborted, cause := .bpppInvalid, faultAddr := 0 }) ∧
  ∀ (r : BitVec 30) (s : State) (b : Byte), (s.engine = .idle ∨ s.engine = .done) →
    decode (.pack (s.bppp.extractLsb' 0 8)) = .ok (.packInvalid b) →
    s.srcCfg.getLsbD 17 = true → s.srcCfg.extractLsb' 0 8 = 32 → (s.srcCfg.extractLsb' 8 8).toNat ≤ 32 →
    s.dstCfg.getLsbD 17 = true → (s.dstCfg.extractLsb' 0 8).toNat ≤ 32 →
    (s.dstCfg.extractLsb' 8 8).toNat ≤ 24 →
    exec (.ctrlStart r) s = exec (.packInvalid b) { s with pixelsDone := 0, resp := .done }

/-- 60_exceptions.md R207; that a pack mode executed where its step is not enabled changes nothing is
the model's choice, notes/assumptions/12.md. -/
def Obligations.PackModesWaitWhereNoReadIsEnabled : Prop :=
  ∀ s : State, ¬(s.engine = .busy ∧ s.phase = .read ∧ s.pix.toNat < s.lat.len.toNat) →
    exec .pack1 s = .next s ∧ exec .pack2 s = .next s ∧ exec .pack3 s = .next s

/-- 42_sequencer.md R175, R176, 20_memory.md R57: a write step of the engine stores the held byte at
`dp` and no other, and the last byte of a pixel advances, whether or not an input waits (entry 6). A
pixel in `raced` is left to 20_memory.md R69: entry 8. -/
def Obligations.WriteStepStoresOneByte : Prop :=
  ∀ (s : State) (v : Byte) (rest : List TimedInput), s.engine = .busy → s.phase = .write →
    EngineMoves s rest → s.mem.wf = true → s.raced.contains s.pix.toNat = false → s.out[s.byteIdx.toNat]? = some v →
    memOk s.plat s.dp = true →
    ∃ m : Memory, Memory.get s.dp.toNat m = v ∧
      (∀ x : Addr, x ≠ s.dp → Memory.get x.toNat m = byteAt s x) ∧
      ((s.byteIdx + 1).toNat ≠ s.lat.bppp.toNat →
        step s = .next { s with inputs := rest, mem := m, dp := s.dp + 1, byteIdx := s.byteIdx + 1 }) ∧
      ((s.byteIdx + 1).toNat = s.lat.bppp.toNat →
        step s = .next { s with inputs := rest, mem := m, dp := s.dp + 1, byteIdx := 0, phase := .read,
                                pix := s.pix + 1, pixelsDone := s.pix + 1, sp := s.sp + 4 })

/-- 42_sequencer.md R179, 60_exceptions.md R192, whether or not an input waits (entry 6). A failed write of a
pixel in `raced` draws no byte (`draws` is the model's own: entry 8). -/
def Obligations.WriteBusErrorAborts : Prop :=
  ∀ (s : State) (rest : List TimedInput), s.engine = .busy → s.phase = .write → EngineMoves s rest →
    s.byteIdx.toNat < s.out.length → memOk s.plat s.dp = false →
    step s = .next { s with inputs := rest, engine := .aborted, cause := .busWrite, faultAddr := s.dp }

/-- 42_sequencer.md R177, 10_state.md R47: the completion, and the interrupt it raises, whether or not an
input waits (entry 6). -/
def Obligations.CompletionReachesDone : Prop :=
  ∀ (s : State) (rest : List TimedInput), s.engine = .busy → s.phase = .read → EngineMoves s rest →
    s.pix = s.lat.len →
    step s = .next { s with inputs := rest, engine := .done } ∧
    irqLevel { s with engine := .done } = s.irqEn.getLsbD 0

/-- 42_sequencer.md R173: with LEN = 0 the addresses may hold anything, the first engine step completes,
and no byte of memory is read or written. -/
def Obligations.ZeroLengthTouchesNoMemory : Prop :=
  ∀ (r : BitVec 30) (s : State), (s.engine = .idle ∨ s.engine = .done) → s.inputs = [] → s.len = 0 →
    FormatsAccepted (srcFormat s) (dstFormat s) (widthValue s) →
    ∃ u, exec (.ctrlStart r) s = .next u ∧ step u = .next { started s with engine := .done } ∧
      ∀ m p, step { u with mem := m, plat := p } =
        .next { started s with engine := .done, mem := m, plat := p }

/-! ### Conversions -/

/-- 42_sequencer.md R180, R182, 20_memory.md R62: a conversion whose accesses all complete is DONE after
exactly 1 + len * (1 + bppp) engine steps, and BUSY after any fewer; packed pixel k holds CONVERT_PIXEL of source word k, and
no other byte has changed. -/
def Obligations.ConversionPacksEveryPixel : Prop :=
  ∀ (r : BitVec 30) (s : State), AloneFrom s → (∀ k < s.len.toNat, PixelOk s k) →
    ∃ u t, exec (.ctrlStart r) s = .next u ∧
      BusyBefore (1 + s.len.toNat * (1 + (widthValue s).toNat)) u ∧
      Sys2Proof.core.run (1 + s.len.toNat * (1 + (widthValue s).toNat)) u = .next t ∧
      t.engine = .done ∧ t.cause = .none ∧ t.faultAddr = 0 ∧ t.pixelsDone = s.len ∧
      SameConfiguration s t ∧
      (∀ k < s.len.toNat, ∀ j < (widthValue s).toNat,
        some (byteAt t (dstByteAddr s k j)) = packedByte s k j) ∧
      ∀ x : Addr,
        (x.toNat < s.dstAddr.toNat ∨ s.dstAddr.toNat + (widthValue s).toNat * s.len.toNat ≤ x.toNat) →
        byteAt t x = byteAt s x

/-- 42_sequencer.md R178, 60_exceptions.md R193, R194: a conversion whose first failing access is the
read of pixel k is BUSY up to that access and ABORTED by it. -/
def Obligations.ReadBusErrorIsPrecise : Prop :=
  ∀ (r : BitVec 30) (s : State) (k : Nat), AloneFrom s → k < s.len.toNat →
    (∀ k' < k, PixelOk s k') → wordOk s.plat (srcWordAddr s k) = false →
    ∃ u t, exec (.ctrlStart r) s = .next u ∧
      BusyBefore (k * (1 + (widthValue s).toNat) + 1) u ∧
      Sys2Proof.core.run (k * (1 + (widthValue s).toNat) + 1) u = .next t ∧
      t.engine = .aborted ∧ t.cause = .busRead ∧ t.faultAddr = srcWordAddr s k ∧
      t.pixelsDone.toNat = k ∧ SameConfiguration s t ∧
      (∀ k' < k, ∀ j < (widthValue s).toNat,
        some (byteAt t (dstByteAddr s k' j)) = packedByte s k' j) ∧
      ∀ x : Addr,
        (x.toNat < s.dstAddr.toNat ∨ s.dstAddr.toNat + (widthValue s).toNat * k ≤ x.toNat) →
        byteAt t x = byteAt s x

/-- 42_sequencer.md R179, 60_exceptions.md R193, R194: a conversion whose first failing access is the
write of byte j of pixel k is BUSY up to that access and ABORTED by it. -/
def Obligations.WriteBusErrorIsPrecise : Prop :=
  ∀ (r : BitVec 30) (s : State) (k j : Nat), AloneFrom s → k < s.len.toNat →
    j < (widthValue s).toNat → (∀ k' < k, PixelOk s k') → wordOk s.plat (srcWordAddr s k) = true →
    (∀ j' < j, memOk s.plat (dstByteAddr s k j') = true) → memOk s.plat (dstByteAddr s k j) = false →
    ∃ u t, exec (.ctrlStart r) s = .next u ∧
      BusyBefore (k * (1 + (widthValue s).toNat) + 1 + j + 1) u ∧
      Sys2Proof.core.run (k * (1 + (widthValue s).toNat) + 1 + j + 1) u = .next t ∧
      t.engine = .aborted ∧ t.cause = .busWrite ∧ t.faultAddr = dstByteAddr s k j ∧
      t.pixelsDone.toNat = k ∧ SameConfiguration s t ∧
      (∀ k' j', j' < (widthValue s).toNat → (k' < k ∨ (k' = k ∧ j' < j)) →
        some (byteAt t (dstByteAddr s k' j')) = packedByte s k' j') ∧
      ∀ x : Addr,
        (x.toNat < s.dstAddr.toNat ∨ s.dstAddr.toNat + (widthValue s).toNat * k + j ≤ x.toNat) →
        byteAt t x = byteAt s x

/-- 10_state.md R40, 20_memory.md R72, 70_reset_and_hazards.md R224: a register write before a run of the
engine and the same write after it come to the same state, so nothing else of the run depends on it. -/
def Obligations.RunningConversionDoesNotSeeRegisterWrites : Prop :=
  ∀ (n : Nat) (q : RegName) (d : Word) (s t u : State), writable q = true → s.inputs = [] →
    exec (writeInstr d q) s = .next u → Sys2Proof.core.run n s = .next t →
    ∃ v, exec (writeInstr d q) t = .next v ∧ Sys2Proof.core.run n u = .next v

/-- 20_memory.md R62, 42_sequencer.md R175: a step of the engine, whether or not an input waits (entry 6),
changes at most the byte at `dp`, which lies in the destination range of the running conversion. -/
def Obligations.EngineWritesOnlyItsDestination : Prop :=
  ∀ (s t : State) (rest : List TimedInput) (x : Addr), Inv s → s.engine = .busy → EngineMoves s rest →
    step s = .next t →
    byteAt t x ≠ byteAt s x →
    x = s.dp ∧ s.lat.dstAddr.toNat ≤ x.toNat ∧
      x.toNat < s.lat.dstAddr.toNat + s.lat.bppp.toNat * s.lat.len.toNat

/-! ### Races and reset -/

/-- 20_memory.md R69: an outside read of a destination byte of the running conversion answers a free
byte, and any other its value; nothing else of the block or of memory changes. The counter `draws` is
the model's own: entry 8. That the value is answered where MEM_OK is false, at a device address too, is
the model's: entries 16 and 26; that a destination byte is its value as soon as STATE is not BUSY, before
the host has read STATUS (R67, R227), is the model's: entry 27. -/
def Obligations.OutsideReadOfADestinationByteIsFree : Prop :=
  ∀ (s : State) (a : Addr) (rest : List TimedInput), Served s (.memRead a) rest →
    if s.engine = .busy ∧ s.lat.dstAddr.toNat ≤ a.toNat ∧
        a.toNat < s.lat.dstAddr.toNat + s.lat.bppp.toNat * s.lat.len.toNat then
      ∃ v, step s = .next { s with inputs := rest, resp := .byte v, draws := s.draws + 1 }
    else step s = .next { s with inputs := rest, resp := .byte (byteAt s a) }

/-- 20_memory.md R69: an outside write into a buffer of the running conversion leaves free only the byte
written and the output of one pixel, which holds that byte or is packed from its word; the bytes of
other pixels, and all other state, stand. An outside write elsewhere stores its byte alone. `raced`
and `draws`, which remember the free pixels and bytes, are the model's own: entry 8. That a byte is stored
where MEM_OK is false, at a device address too, is the model's: entries 16 and 26; that a write after the
conversion's end and before the host has read STATUS (R67) stands is the model's: entry 27. -/
def Obligations.OutsideWriteRacesWithOnePixelOnly : Prop :=
  ∀ (s : State) (a : Addr) (v : Byte) (rest : List TimedInput), Inv s →
    Served s (.memWrite a v) rest →
    let S := s.lat.srcAddr.toNat
    let D := s.lat.dstAddr.toNat
    let b := s.lat.bppp.toNat
    let n := s.lat.len.toNat
    if s.engine = .busy ∧ ((S ≤ a.toNat ∧ a.toNat < S + 4 * n) ∨ (D ≤ a.toNat ∧ a.toNat < D + b * n)) then
      ∃ k m q w, k < n ∧
        ((S + 4 * k ≤ a.toNat ∧ a.toNat < S + 4 * k + 4) ∨
          (D + b * k ≤ a.toNat ∧ a.toNat < D + b * k + b)) ∧
        step s = .next { s with inputs := rest, resp := .done, mem := m, raced := q, draws := w } ∧
        (∀ k', k' ∈ q ↔ k' = k ∨ k' ∈ s.raced) ∧
        ∀ x : Addr, x ≠ a → (x.toNat < D + b * k ∨ D + b * k + b ≤ x.toNat) →
          Memory.get x.toNat m = byteAt s x
    else
      ∃ m, step s = .next { s with inputs := rest, resp := .done, mem := m } ∧
        Memory.get a.toNat m = v ∧ ∀ x : Addr, x ≠ a → Memory.get x.toNat m = byteAt s x

/-- 70_reset_and_hazards.md R220, 10_state.md R39: the values the spec gives for reset. -/
def Obligations.ResetHoldsTheSpecValues : Prop :=
  [RegName.srcCfg, .srcMaxRG, .srcMaxB, .srcShift, .dstCfg, .dstMaxRG, .dstMaxB, .dstShift, .bppp,
    .len, .srcAddr, .dstAddr, .ctrl, .status, .irqEn, .pixelsDone, .faultAddr, .id].map
    (fun r => match exec (readInstr r) State.reset with
      | .next t => some t.resp
      | _ => none) =
    List.replicate 17 (some (.data 0)) ++ [some (.data 0x504B0001)] ∧
  State.reset.engine = .idle ∧ State.reset.cause = .none ∧ irqLevel State.reset = false

/-- 70_reset_and_hazards.md R220, R221: reset at any moment gives the register block and STATE their
reset values and leaves memory, but for the destination bytes of an abandoned conversion, which are
free bytes (entry 9); the pending inputs and the platform stand (entry 21). -/
def Obligations.ResetKeepsMemoryOutsideTheAbandonedBytes : Prop :=
  ∀ (s : State) (rest : List TimedInput), Inv s → Served s .reset rest →
    ∃ t, step s = .next t ∧ t.inputs = rest ∧ t.plat = s.plat ∧
      t.srcCfg = 0 ∧ t.srcMaxRG = 0 ∧ t.srcMaxB = 0 ∧ t.srcShift = 0 ∧
      t.dstCfg = 0 ∧ t.dstMaxRG = 0 ∧ t.dstMaxB = 0 ∧ t.dstShift = 0 ∧
      t.bppp = 0 ∧ t.len = 0 ∧ t.srcAddr = 0 ∧ t.dstAddr = 0 ∧ t.irqEn = 0 ∧
      t.pixelsDone = 0 ∧ t.faultAddr = 0 ∧ t.engine = .idle ∧ t.cause = .none ∧
      (s.engine ≠ .busy → t.mem = s.mem) ∧
      ∀ x : Addr,
        (x.toNat < s.lat.dstAddr.toNat ∨
          s.lat.dstAddr.toNat + s.lat.bppp.toNat * s.lat.len.toNat ≤ x.toNat) →
        byteAt t x = byteAt s x

/-! ### The whole machine -/

/-- 10_state.md R36 to R41, R43: the invariant at reset. -/
def Obligations.ResetSatisfiesTheInvariant : Prop := Inv State.reset

/-- 10_state.md R33, R36, R38, R41, 42_sequencer.md R171, 20_memory.md R53: every step keeps the
invariant (reserved bits, the record of STATUS, FAULT_ADDR and PIXELS_DONE, the cursors of a running
conversion, the form of memory). -/
def Obligations.StepKeepsTheInvariant : Prop :=
  ∀ s t : State, Inv s → step s = .next t → Inv t

/-- 60_exceptions.md R190, 40_host_ops.md R100: a machine in a state of the invariant has a next state, and
never stops. The two faults of the model (entry 13) are outside the invariant. -/
def Obligations.InvariantStatesRunForEver : Prop :=
  ∀ s : State, Inv s → Steps s ∧ ∀ n : Nat, RunsFor n s

/-- Every step keeps the canonical form of memory, from any state. Memory is the array of 20_memory.md R54;
that it is a list in a canonical form, and the form, are the model's: entry 1. -/
def Obligations.StepKeepsMemoryCanonical : Prop :=
  ∀ s t : State, s.mem.wf = true → step s = .next t → t.mem.wf = true

/-- 20_memory.md R51, R54, R59: no step changes what the platform fixes. The platform is carried in the
state by the model: entry 3. -/
def Obligations.NoStepChangesThePlatform : Prop :=
  ∀ s t : State, step s = .next t → t.plat = s.plat

/-- 60_exceptions.md R197, R198, 10_state.md R43: the abort record stands until CLEAR, CLEAR_START or
reset; until then no byte moves but by an outside write. -/
def Obligations.AbortRecordIsStickyUntilClearOrReset : Prop :=
  ∀ s t : State, s.engine = .aborted → step s = .next t →
    (t.engine = .aborted ∧ t.cause = s.cause ∧ t.faultAddr = s.faultAddr ∧
      t.pixelsDone = s.pixelsDone ∧
      (t.mem = s.mem ∨ ∃ a v rest, Served s (.memWrite a v) rest)) ∨
    (∃ rest, Served s .reset rest) ∨
    ∃ r, ServesOperation s (.ctrlClear r) ∨ ServesOperation s (.ctrlClearStart r)

/-- 10_state.md R43: the transitions of STATE. DONE comes only from BUSY, at an engine step with i = L.len;
BUSY goes to ABORTED only at an engine step whose access has a bus error, which it records, and to IDLE
only by reset; IDLE, DONE and ABORTED are left only by a legal START or CLEAR or by reset. The clause on
BUSY to ABORTED is about the states of the invariant: outside them L.bppp may select no packer. -/
def Obligations.EngineStateTransitions : Prop :=
  ∀ s t : State, step s = .next t → t.engine ≠ s.engine →
    (t.engine = .done →
      s.engine = .busy ∧ (∃ rest, EngineMoves s rest) ∧ s.phase = .read ∧ s.pix = s.lat.len) ∧
    (s.engine = .busy → t.engine = .aborted → Inv s →
      (∃ rest, EngineMoves s rest) ∧
      ((s.phase = .read ∧ s.pix.toNat < s.lat.len.toNat ∧ wordOk s.plat s.sp = false ∧
          t.cause = .busRead ∧ t.faultAddr = s.sp) ∨
        (s.phase = .write ∧ memOk s.plat s.dp = false ∧ t.cause = .busWrite ∧ t.faultAddr = s.dp))) ∧
    (s.engine = .busy → t.engine = .idle → ∃ rest, Served s .reset rest) ∧
    (s.engine ≠ .busy → (∃ rest, Served s .reset rest) ∨
      ∃ r,
        (ServesOperation s (.ctrlStart r) ∧ s.engine ≠ .aborted ∧
          (t.engine = .busy ∨ t.engine = .aborted)) ∨
        (ServesOperation s (.ctrlClear r) ∧ s.engine ≠ .idle ∧ t.engine = .idle) ∨
        (ServesOperation s (.ctrlClearStart r) ∧ (t.engine = .busy ∨ t.engine = .aborted)))

/-- 20_memory.md R54, R55, R56: MEM_OK is false on every address of a listed range, whatever lies there, and
true elsewhere; a word is readable when its four bytes are. That MEM_OK is given by a list of ranges is the
model's: entry 4. -/
def Obligations.MemOkIsFalseExactlyOnTheListedRanges : Prop :=
  ∀ (p : Platform) (a : Addr),
    (memOk p a = false ↔ ∃ r ∈ p.noMem, r.base ≤ a.toNat ∧ a.toNat < r.base + r.size) ∧
    (wordOk p a = true ↔ ∀ k < 4, memOk p (a + BitVec.ofNat 32 k) = true)

/-- 20_memory.md R55, 42_sequencer.md R178, R179: an engine access to an address of a listed range, a device or
the block's own window among them, aborts with the bus error of its kind. The list of ranges is the model's:
entry 4. -/
def Obligations.EngineAccessToAListedRangeAborts : Prop :=
  ∀ (s : State) (rest : List TimedInput) (r : Region) (a : Addr), Inv s → s.engine = .busy →
    EngineMoves s rest → r ∈ s.plat.noMem → r.base ≤ a.toNat → a.toNat < r.base + r.size →
    (s.phase = .read → s.pix.toNat < s.lat.len.toNat → (∃ k < 4, a = s.sp + BitVec.ofNat 32 k) →
      step s = .next { s with inputs := rest, engine := .aborted, cause := .busRead, faultAddr := s.sp }) ∧
    (s.phase = .write → a = s.dp →
      step s = .next { s with inputs := rest, engine := .aborted, cause := .busWrite, faultAddr := s.dp })

/-- 60_exceptions.md R207, 70_reset_and_hazards.md R222: in IDLE, DONE and ABORTED the engine takes no step, so
with nothing pending the machine stays as it is, for any number of steps. That a step with nothing to do
leaves the state is the model's: entry 22. -/
def Obligations.EngineWaitsWhereNothingIsPending : Prop :=
  ∀ s : State, s.engine ≠ .busy → s.inputs = [] →
    step s = .next s ∧ ∀ n : Nat, Sys2Proof.core.run n s = .next s
end

