-- ==== Sys2Proof/Laws/Decode.lean ====
section
/-! SUPPORT. The fields of a transaction word, and which register lies at an offset. -/

namespace Sys2Proof

/-- The bits of a transaction word. -/
theorem getLsbD_transWord (w : Bool) (off : Offset) (d : Word) (k : Nat) :
    (transWord w off d).getLsbD k =
      if k < 32 then d.getLsbD k
      else if k - 32 < 12 then off.getLsbD (k - 32) else (BitVec.ofBool w).getLsbD (k - 32 - 12) := by
  change (BitVec.ofBool w ++ off ++ d : BitVec (1 + 12 + 32)).getLsbD k = _
  rw [BitVec.getLsbD_append, BitVec.getLsbD_append]

@[simp] theorem transW_transWord (w : Bool) (off : Offset) (d : Word) :
    transW (transWord w off d) = w := by
  rw [transW, getLsbD_transWord]
  cases w <;> rfl

@[simp] theorem transOff_transWord (w : Bool) (off : Offset) (d : Word) :
    transOff (transWord w off d) = off := by
  apply BitVec.eq_of_getLsbD_eq
  intro k hk
  have h1 : ¬ (32 + k < 32) := by omega
  have h2 : 32 + k - 32 = k := by omega
  rw [transOff, BitVec.getLsbD_extractLsb', getLsbD_transWord]
  simp only [h1, if_false, h2, hk, if_true, decide_true, Bool.true_and]

@[simp] theorem transData_transWord (w : Bool) (off : Offset) (d : Word) :
    transData (transWord w off d) = d := by
  apply BitVec.eq_of_getLsbD_eq
  intro k hk
  rw [transData, BitVec.getLsbD_extractLsb', getLsbD_transWord]
  simp only [Nat.zero_add, hk, if_true, decide_true, Bool.true_and]

/-- A transaction word is its three fields (30_encoding.md R75). -/
theorem transWord_eta (t : TransWord) : transWord (transW t) (transOff t) (transData t) = t := by
  apply BitVec.eq_of_getLsbD_eq
  intro k hk
  rw [getLsbD_transWord]
  unfold transW transOff transData
  by_cases h1 : k < 32
  · simp [h1]
  · by_cases h2 : k - 32 < 12
    · have : 32 + (k - 32) = k := by omega
      simp only [h1, h2, if_false, if_true, BitVec.getLsbD_extractLsb', this, decide_true,
        Bool.true_and]
    · have : k = 44 := by omega
      subst this
      simp

@[simp] theorem regAt_offset (r : RegName) : regAt r.offset = some r := by cases r <;> rfl

@[simp] theorem alignedOffset_offset (r : RegName) : alignedOffset r.offset = true := by
  cases r <;> rfl

/-- The register found at an offset has that offset. -/
theorem offset_of_regAt {off : Offset} {r : RegName} (h : regAt off = some r) : r.offset = off := by
  have := List.find?_some h
  simpa using this

/-- No register lies at 0x048 or above (30_encoding.md R76). -/
theorem regAt_of_le {off : Offset} (h : 0x048 ≤ off.toNat) : regAt off = none := by
  refine List.find?_eq_none.mpr fun r _ => ?_
  have : r.offset.toNat < 0x048 := by cases r <;> decide
  simp only [beq_iff_eq]
  intro e
  rw [e] at this
  omega

/-- `off[1:0] = 0` is divisibility by 4. -/
theorem alignedOffset_iff (off : Offset) : alignedOffset off = true ↔ off.toNat % 4 = 0 := by
  simp [alignedOffset, ← BitVec.toNat_inj, BitVec.extractLsb'_toNat]

/-- An aligned offset below 0x048 is that of a register (30_encoding.md R76). -/
theorem regAt_isSome {off : Offset} (h : alignedOffset off = true) (hlt : off.toNat < 0x048) :
    ∃ r, regAt off = some r := by
  rw [alignedOffset_iff] at h
  have hall : ∀ n < 0x048, n % 4 = 0 → ∃ r ∈ RegName.all, r.offset.toNat = n := by decide
  obtain ⟨r, -, hr⟩ := hall _ hlt h
  have : r.offset = off := BitVec.eq_of_toNat_eq hr
  exact ⟨r, this ▸ regAt_offset r⟩

/-- What decoding a transaction word can answer, said once. -/
theorem decodeMmio_cases {t : TransWord} {i : Instr} (h : decodeMmio t = .ok i) :
    alignedOffset (transOff t) = true ∧
      ((∃ r, r.offset = transOff t ∧ transW t = false ∧ i = readInstr r) ∨
       (∃ r, r.offset = transOff t ∧ transW t = true ∧ i = writeInstr (transData t) r) ∨
       (regAt (transOff t) = none ∧ transW t = false ∧ i = .rdRsvd (transOff t)) ∨
       (regAt (transOff t) = none ∧ transW t = true ∧ i = .wrRsvd (transOff t) (transData t))) := by
  unfold decodeMmio at h
  by_cases ha : alignedOffset (transOff t) = true
  · simp only [ha, if_true] at h
    refine ⟨ha, ?_⟩
    cases hr : regAt (transOff t) <;> cases hw : transW t <;> simp only [hr, hw] at h <;>
      cases h
    · exact .inr (.inr (.inl ⟨rfl, rfl, rfl⟩))
    · exact .inr (.inr (.inr ⟨rfl, rfl, rfl⟩))
    · exact .inl ⟨_, offset_of_regAt hr, rfl, rfl⟩
    · exact .inr (.inl ⟨_, offset_of_regAt hr, rfl, rfl⟩)
  · simp [ha] at h

/-- A read of a register decodes to its read. -/
theorem decodeMmio_read (r : RegName) (d : Word) :
    decodeMmio (transWord false r.offset d) = .ok (readInstr r) := by
  simp [decodeMmio]

/-- A write of a register decodes to its write. -/
theorem decodeMmio_write (r : RegName) (d : Word) :
    decodeMmio (transWord true r.offset d) = .ok (writeInstr d r) := by
  simp [decodeMmio]

/-- The W and OFF mask of a register row keeps the two fields and drops DATA (30_encoding.md R89). -/
theorem transWord_and_rowMask (w : Bool) (off : Offset) (d : Word) :
    transWord w off d &&& 0x1fff00000000#45 = transWord w off 0 := by
  change (BitVec.ofBool w ++ off ++ d : BitVec (1 + 12 + 32)) &&&
    (1#1 ++ 0xfff#12 ++ 0#32 : BitVec (1 + 12 + 32)) =
      (BitVec.ofBool w ++ off ++ 0#32 : BitVec (1 + 12 + 32))
  rw [BitVec.and_append, BitVec.and_append]
  congr 1
  · congr 1
    · cases w <;> rfl
    · exact BitVec.and_allOnes
  · simp

/-- The mask of a CTRL row keeps `DATA[1:0]` too (30_encoding.md R89). -/
theorem transWord_and_ctrlMask (w : Bool) (off : Offset) (d : Word) :
    transWord w off d &&& 0x1fff00000003#45 = transWord w off (d &&& 3) := by
  change (BitVec.ofBool w ++ off ++ d : BitVec (1 + 12 + 32)) &&&
    (1#1 ++ 0xfff#12 ++ 3#32 : BitVec (1 + 12 + 32)) =
      (BitVec.ofBool w ++ off ++ (d &&& 3#32) : BitVec (1 + 12 + 32))
  rw [BitVec.and_append, BitVec.and_append]
  congr 2
  · cases w <;> rfl
  · exact BitVec.and_allOnes

/-- The mask of a fallback row keeps W alone (30_encoding.md R89). -/
theorem transWord_and_fallbackMask (w : Bool) (off : Offset) (d : Word) :
    transWord w off d &&& 0x100000000000#45 = transWord w 0 0 := by
  change (BitVec.ofBool w ++ off ++ d : BitVec (1 + 12 + 32)) &&&
    (1#1 ++ 0#12 ++ 0#32 : BitVec (1 + 12 + 32)) =
      (BitVec.ofBool w ++ 0#12 ++ 0#32 : BitVec (1 + 12 + 32))
  rw [BitVec.and_append, BitVec.and_append]
  congr 1
  · congr 1
    · cases w <;> rfl
    · simp
  · simp

/-- A word that matches a register row has the row's W and OFF. -/
theorem fields_of_rowMask {t : TransWord} {w : Bool} {off : Offset}
    (h : t &&& 0x1fff00000000#45 = transWord w off 0) : transW t = w ∧ transOff t = off := by
  rw [← transWord_eta t, transWord_and_rowMask] at h
  have h1 := congrArg transW h
  have h2 := congrArg transOff h
  simp only [transW_transWord, transOff_transWord] at h1 h2
  exact ⟨h1, h2⟩

/-- The DATA of a CTRL write: `{rest, CLEAR, START}` (30_encoding.md R83). -/
theorem ctrlData_bits (rest : BitVec 30) (c s : Bool) :
    let d : Word := (rest ++ BitVec.ofBool c ++ BitVec.ofBool s : BitVec (30 + 1 + 1))
    d.getLsbD 0 = s ∧ d.getLsbD 1 = c ∧ d.extractLsb' 2 30 = rest := by
  refine ⟨?_, ?_, ?_⟩
  · change (rest ++ BitVec.ofBool c ++ BitVec.ofBool s : BitVec (30 + 1 + 1)).getLsbD 0 = s
    rw [BitVec.getLsbD_append]; simp
  · change (rest ++ BitVec.ofBool c ++ BitVec.ofBool s : BitVec (30 + 1 + 1)).getLsbD 1 = c
    rw [BitVec.getLsbD_append, BitVec.getLsbD_append]; simp
  · apply BitVec.eq_of_getLsbD_eq
    intro k hk
    change ((rest ++ BitVec.ofBool c ++ BitVec.ofBool s : BitVec (30 + 1 + 1)).extractLsb' 2 30).getLsbD k = _
    rw [BitVec.getLsbD_extractLsb', BitVec.getLsbD_append, BitVec.getLsbD_append]
    have a1 : ¬ (2 + k < 1) := by omega
    simp [a1, hk]

/-- The command a CTRL write's DATA selects. -/
theorem ctrlInstr_data (rest : BitVec 30) (c s : Bool) :
    ctrlInstr (rest ++ BitVec.ofBool c ++ BitVec.ofBool s : BitVec (30 + 1 + 1)) =
      match c, s with
      | false, false => .ctrlNop rest
      | false, true => .ctrlStart rest
      | true, false => .ctrlClear rest
      | true, true => .ctrlClearStart rest := by
  obtain ⟨h0, h1, h2⟩ := ctrlData_bits rest c s
  unfold ctrlInstr
  rw [h0, h1, h2] <;> (cases c <;> cases s <;> rfl)

end Sys2Proof
end

