-- ==== Sys2Proof/Laws/Memory.lean ====
section
/-! SUPPORT. Memory: a read after a write, and the canonical form every memory operation keeps. -/

namespace Sys2Proof.Machine

/-- The canonical form as propositions. -/
theorem Memory.wf_iff (m : Memory) :
    m.wf = true ↔
      m.Pairwise (fun c d => c.1 < d.1) ∧ ∀ c ∈ m, c.1 < 2 ^ 32 ∧ c.2 ≠ unlistedByte := by
  simp [Memory.wf]

@[simp] theorem Memory.get_nil (a : Nat) : Memory.get a [] = unlistedByte := rfl

theorem Memory.get_cons (a b : Nat) (v : Byte) (m : Memory) :
    Memory.get a ((b, v) :: m) = if b = a then v else Memory.get a m := rfl

/-- An address that no entry names reads as the unlisted byte. -/
theorem Memory.get_of_not_mem {a : Nat} {m : Memory} (h : ∀ c ∈ m, c.1 ≠ a) :
    Memory.get a m = unlistedByte := by
  induction m with
  | nil => rfl
  | cons c m ih =>
    obtain ⟨b, v⟩ := c
    have hb : b ≠ a := h (b, v) (by simp)
    simp only [Memory.get_cons, hb, if_false]
    exact ih (fun c hc => h c (by simp [hc]))

/-- A byte written is the byte read, in a memory whose addresses rise. -/
theorem Memory.get_set_self {a : Nat} {v : Byte} {m : Memory}
    (h : m.Pairwise (fun c d => c.1 < d.1)) : Memory.get a (m.set a v) = v := by
  induction m with
  | nil => by_cases hv : v = unlistedByte <;> simp [Memory.set, hv, Memory.get_cons]
  | cons c m ih =>
    obtain ⟨b, w⟩ := c
    obtain ⟨hc, hm⟩ := List.pairwise_cons.mp h
    have hgt : ∀ {x : Nat}, x ≤ b → ∀ c ∈ m, c.1 ≠ x := fun hx c hcm => by
      have := hc c hcm; simp at this; omega
    simp only [Memory.set]
    by_cases h1 : a < b
    · by_cases hv : v = unlistedByte
      · have hab : b ≠ a := by omega
        simp only [h1, hv, if_true, Memory.get_cons, hab, if_false]
        exact Memory.get_of_not_mem (hgt (by omega))
      · simp [h1, hv, Memory.get_cons]
    · by_cases h2 : a = b
      · by_cases hv : v = unlistedByte
        · simp only [h2, hv, if_true, lt_irrefl, if_false]
          exact Memory.get_of_not_mem (hgt (by omega))
        · simp [h2, hv, Memory.get_cons]
      · have hab : b ≠ a := fun e => h2 e.symm
        simp only [h1, h2, if_false, Memory.get_cons, hab]
        exact ih hm

/-- A write leaves every other byte alone. -/
theorem Memory.get_set_other {a x : Nat} {v : Byte} (m : Memory) (hx : x ≠ a) :
    Memory.get x (m.set a v) = Memory.get x m := by
  have hax : a ≠ x := Ne.symm hx
  induction m with
  | nil => by_cases hv : v = unlistedByte <;> simp [Memory.set, hv, Memory.get_cons, hax]
  | cons c m ih =>
    obtain ⟨b, w⟩ := c
    simp only [Memory.set]
    by_cases h1 : a < b
    · by_cases hv : v = unlistedByte <;> simp [h1, hv, Memory.get_cons, hax]
    · by_cases h2 : a = b
      · subst h2
        by_cases hv : v = unlistedByte <;> simp [hv, Memory.get_cons, hax]
      · simp only [h1, h2, if_false, Memory.get_cons, ih]

/-- The entries a write leaves: old ones, or the one written. -/
theorem Memory.mem_set {a : Nat} {v : Byte} {m : Memory} {c : Host.Cell} (h : c ∈ m.set a v) :
    c ∈ m ∨ (c = (a, v) ∧ v ≠ unlistedByte) := by
  induction m with
  | nil =>
    by_cases hv : v = unlistedByte
    · simp [Memory.set, hv] at h
    · simp [Memory.set, hv] at h; exact .inr ⟨h, hv⟩
  | cons d m ih =>
    obtain ⟨b, w⟩ := d
    simp only [Memory.set] at h
    split at h
    · split at h
      · exact .inl h
      · rename_i hv
        rcases List.mem_cons.mp h with rfl | h'
        · exact .inr ⟨rfl, hv⟩
        · exact .inl h'
    · split at h
      · split at h
        · exact .inl (List.mem_cons_of_mem _ h)
        · rename_i hv
          rcases List.mem_cons.mp h with rfl | h'
          · exact .inr ⟨rfl, hv⟩
          · exact .inl (List.mem_cons_of_mem _ h')
      · rcases List.mem_cons.mp h with rfl | h'
        · exact .inl (by simp)
        · rcases ih h' with h'' | h''
          · exact .inl (List.mem_cons_of_mem _ h'')
          · exact .inr h''

/-- A write keeps the addresses rising. -/
theorem Memory.pairwise_set {a : Nat} {v : Byte} {m : Memory}
    (h : m.Pairwise (fun c d => c.1 < d.1)) : (m.set a v).Pairwise (fun c d => c.1 < d.1) := by
  induction m with
  | nil => by_cases hv : v = unlistedByte <;> simp [Memory.set, hv]
  | cons d m ih =>
    obtain ⟨b, w⟩ := d
    obtain ⟨hd, hm⟩ := List.pairwise_cons.mp h
    simp only [Memory.set]
    split
    · rename_i hab
      split
      · exact h
      · refine List.pairwise_cons.mpr ⟨fun c hc => ?_, h⟩
        rcases List.mem_cons.mp hc with rfl | hc'
        · exact hab
        · have := hd c hc'; simp at this ⊢; omega
    · split
      · rename_i heq
        subst heq
        split
        · exact hm
        · exact List.pairwise_cons.mpr ⟨hd, hm⟩
      · refine List.pairwise_cons.mpr ⟨fun c hc => ?_, ih hm⟩
        rcases Memory.mem_set hc with hc' | ⟨rfl, -⟩
        · exact hd c hc'
        · show b < a
          omega

/-- A write at an address of the address space keeps the canonical form. -/
theorem Memory.wf_set {a : Nat} {v : Byte} {m : Memory} (ha : a < 2 ^ 32) (h : m.wf = true) :
    (m.set a v).wf = true := by
  rw [Memory.wf_iff] at h ⊢
  refine ⟨Memory.pairwise_set h.1, fun c hc => ?_⟩
  rcases Memory.mem_set hc with hc' | ⟨rfl, hv⟩
  · exact h.2 c hc'
  · exact ⟨ha, hv⟩

/-- Drawing a range of free bytes keeps the canonical form. -/
theorem Memory.wf_freeRange (a : Addr) (k n : Nat) {m : Memory} (h : m.wf = true) :
    (Memory.freeRange a k n m).wf = true := by
  induction n generalizing m with
  | zero => exact h
  | succ n ih => exact ih (Memory.wf_set (BitVec.isLt _) h)

/-- Drawing a range of free bytes leaves every address outside the range alone. -/
theorem Memory.get_freeRange_other (a : Addr) (k n : Nat) (m : Memory) {x : Nat}
    (hx : ∀ t < n, x ≠ (a + BitVec.ofNat 32 t).toNat) :
    Memory.get x (Memory.freeRange a k n m) = Memory.get x m := by
  induction n generalizing m with
  | zero => rfl
  | succ n ih =>
    rw [Memory.freeRange, ih _ (fun t ht => hx t (by omega)),
      Memory.get_set_other _ (hx n (by omega))]

/-- The byte stored is the byte read (20_memory.md R57). -/
theorem byteAt_storeByte_self {s : State} {a : Addr} {v : Byte} (h : s.mem.wf = true) :
    byteAt (storeByte a v s) a = v :=
  Memory.get_set_self ((Memory.wf_iff _).mp h).1

/-- Every other byte is left alone. -/
theorem byteAt_storeByte_other (s : State) {a x : Addr} (v : Byte) (h : x ≠ a) :
    byteAt (storeByte a v s) x = byteAt s x :=
  Memory.get_set_other _ (fun e => h (BitVec.eq_of_toNat_eq e))

/-- What a completed engine write does: MEM_OK held, and the byte is stored. -/
theorem memWriteByte_eq_some {a : Addr} {v : Byte} {s t : State} :
    memWriteByte a v s = some t ↔ memOk s.plat a = true ∧ t = storeByte a v s := by
  unfold memWriteByte
  by_cases h : memOk s.plat a = true
  · simp only [h, if_true, Option.some.injEq, true_and]
    exact eq_comm
  · simp [h]

/-- What a completed engine read returns: MEM_OK held for its four bytes, and the word. -/
theorem memReadWord_eq_some {a : Addr} {s : State} {w : Word} :
    memReadWord s a = some w ↔ wordOk s.plat a = true ∧ w = wordAt s a := by
  unfold memReadWord
  by_cases h : wordOk s.plat a = true
  · simp only [h, if_true, Option.some.injEq, true_and]
    exact eq_comm
  · simp [h]

end Sys2Proof.Machine
end

