-- ==== Sys2Proof/Laws/PerInstr.lean ====
section
/-! SUPPORT. One lemma per instruction: the encoding of a well-formed instruction matches its row of
spec/opcode_table.json (30_encoding.md R75, R87, R89). -/

namespace Sys2Proof.Laws.RowMatch

/-- A row of spec/opcode_table.json: its mask and match, on a transaction word or on a latched width. -/
inductive Row where
  | mmio (mask mtch : TransWord)
  | packMode (mask mtch : Byte)
  deriving DecidableEq, Repr

/-- `(T & mask) = match` (30_encoding.md R75). -/
def Row.matches : Row → Code → Prop
  | .mmio mask mtch, .mmio t => t &&& mask = mtch
  | .packMode mask mtch, .pack b => b &&& mask = mtch
  | .mmio _ _, .pack _ => False
  | .packMode _ _, .mmio _ => False

/-- The row of each instruction, as spec/opcode_table.json has it. -/
def row : Instr → Row
  | .rdSrcCfg => .mmio 0x1fff00000000 0x000000000000
  | .rdSrcMaxRG => .mmio 0x1fff00000000 0x000400000000
  | .rdSrcMaxB => .mmio 0x1fff00000000 0x000800000000
  | .rdSrcShift => .mmio 0x1fff00000000 0x000c00000000
  | .rdDstCfg => .mmio 0x1fff00000000 0x001000000000
  | .rdDstMaxRG => .mmio 0x1fff00000000 0x001400000000
  | .rdDstMaxB => .mmio 0x1fff00000000 0x001800000000
  | .rdDstShift => .mmio 0x1fff00000000 0x001c00000000
  | .rdBppp => .mmio 0x1fff00000000 0x002000000000
  | .rdLen => .mmio 0x1fff00000000 0x002400000000
  | .rdSrcAddr => .mmio 0x1fff00000000 0x002800000000
  | .rdDstAddr => .mmio 0x1fff00000000 0x002c00000000
  | .rdCtrl => .mmio 0x1fff00000000 0x003000000000
  | .rdStatus => .mmio 0x1fff00000000 0x003400000000
  | .rdIrqEn => .mmio 0x1fff00000000 0x003800000000
  | .rdPixelsDone => .mmio 0x1fff00000000 0x003c00000000
  | .rdFaultAddr => .mmio 0x1fff00000000 0x004000000000
  | .rdId => .mmio 0x1fff00000000 0x004400000000
  | .wrSrcCfg _ => .mmio 0x1fff00000000 0x100000000000
  | .wrSrcMaxRG _ => .mmio 0x1fff00000000 0x100400000000
  | .wrSrcMaxB _ => .mmio 0x1fff00000000 0x100800000000
  | .wrSrcShift _ => .mmio 0x1fff00000000 0x100c00000000
  | .wrDstCfg _ => .mmio 0x1fff00000000 0x101000000000
  | .wrDstMaxRG _ => .mmio 0x1fff00000000 0x101400000000
  | .wrDstMaxB _ => .mmio 0x1fff00000000 0x101800000000
  | .wrDstShift _ => .mmio 0x1fff00000000 0x101c00000000
  | .wrBppp _ => .mmio 0x1fff00000000 0x102000000000
  | .wrLen _ => .mmio 0x1fff00000000 0x102400000000
  | .wrSrcAddr _ => .mmio 0x1fff00000000 0x102800000000
  | .wrDstAddr _ => .mmio 0x1fff00000000 0x102c00000000
  | .wrIrqEn _ => .mmio 0x1fff00000000 0x103800000000
  | .wrStatus _ => .mmio 0x1fff00000000 0x103400000000
  | .wrPixelsDone _ => .mmio 0x1fff00000000 0x103c00000000
  | .wrFaultAddr _ => .mmio 0x1fff00000000 0x104000000000
  | .wrId _ => .mmio 0x1fff00000000 0x104400000000
  | .ctrlNop _ => .mmio 0x1fff00000003 0x103000000000
  | .ctrlStart _ => .mmio 0x1fff00000003 0x103000000001
  | .ctrlClear _ => .mmio 0x1fff00000003 0x103000000002
  | .ctrlClearStart _ => .mmio 0x1fff00000003 0x103000000003
  | .rdRsvd _ => .mmio 0x100000000000 0x000000000000
  | .wrRsvd _ _ => .mmio 0x100000000000 0x100000000000
  | .pack1 => .packMode 0xff 0x01
  | .pack2 => .packMode 0xff 0x02
  | .pack3 => .packMode 0xff 0x03
  | .packInvalid _ => .packMode 0x00 0x00

/-- The encoding of `i`, where `i` is well-formed, matches its row. -/
def Statement (i : Instr) : Prop := i.wf = true → (row i).matches (encode i)

/-- A write's word under its row's mask. -/
theorem write_row (r : RegName) (d : Word) :
    transWord true r.offset d &&& 0x1fff00000000#45 = transWord true r.offset 0 :=
  transWord_and_rowMask _ _ _

/-- A command's word under its row's mask. -/
theorem ctrl_row (rest : BitVec 30) (c s : Bool) :
    transWord true RegName.ctrl.offset
        (rest ++ BitVec.ofBool c ++ BitVec.ofBool s : BitVec (30 + 1 + 1)) &&& 0x1fff00000003#45 =
      transWord true RegName.ctrl.offset (0#30 ++ BitVec.ofBool c ++ BitVec.ofBool s : BitVec (30 + 1 + 1)) := by
  rw [transWord_and_ctrlMask]
  congr 1
  change (rest ++ BitVec.ofBool c ++ BitVec.ofBool s : BitVec (30 + 1 + 1)) &&&
    (0#30 ++ 1#1 ++ 1#1 : BitVec (30 + 1 + 1)) = _
  rw [BitVec.and_append, BitVec.and_append]
  cases c <;> cases s <;> simp

theorem rdSrcCfg : Statement .rdSrcCfg := fun _ => rfl
theorem rdSrcMaxRG : Statement .rdSrcMaxRG := fun _ => rfl
theorem rdSrcMaxB : Statement .rdSrcMaxB := fun _ => rfl
theorem rdSrcShift : Statement .rdSrcShift := fun _ => rfl
theorem rdDstCfg : Statement .rdDstCfg := fun _ => rfl
theorem rdDstMaxRG : Statement .rdDstMaxRG := fun _ => rfl
theorem rdDstMaxB : Statement .rdDstMaxB := fun _ => rfl
theorem rdDstShift : Statement .rdDstShift := fun _ => rfl
theorem rdBppp : Statement .rdBppp := fun _ => rfl
theorem rdLen : Statement .rdLen := fun _ => rfl
theorem rdSrcAddr : Statement .rdSrcAddr := fun _ => rfl
theorem rdDstAddr : Statement .rdDstAddr := fun _ => rfl
theorem rdCtrl : Statement .rdCtrl := fun _ => rfl
theorem rdStatus : Statement .rdStatus := fun _ => rfl
theorem rdIrqEn : Statement .rdIrqEn := fun _ => rfl
theorem rdPixelsDone : Statement .rdPixelsDone := fun _ => rfl
theorem rdFaultAddr : Statement .rdFaultAddr := fun _ => rfl
theorem rdId : Statement .rdId := fun _ => rfl
theorem wrSrcCfg (data : Word) : Statement (.wrSrcCfg data) := fun _ => write_row .srcCfg data
theorem wrSrcMaxRG (data : Word) : Statement (.wrSrcMaxRG data) := fun _ => write_row .srcMaxRG data
theorem wrSrcMaxB (data : Word) : Statement (.wrSrcMaxB data) := fun _ => write_row .srcMaxB data
theorem wrSrcShift (data : Word) : Statement (.wrSrcShift data) := fun _ => write_row .srcShift data
theorem wrDstCfg (data : Word) : Statement (.wrDstCfg data) := fun _ => write_row .dstCfg data
theorem wrDstMaxRG (data : Word) : Statement (.wrDstMaxRG data) := fun _ => write_row .dstMaxRG data
theorem wrDstMaxB (data : Word) : Statement (.wrDstMaxB data) := fun _ => write_row .dstMaxB data
theorem wrDstShift (data : Word) : Statement (.wrDstShift data) := fun _ => write_row .dstShift data
theorem wrBppp (data : Word) : Statement (.wrBppp data) := fun _ => write_row .bppp data
theorem wrLen (data : Word) : Statement (.wrLen data) := fun _ => write_row .len data
theorem wrSrcAddr (data : Word) : Statement (.wrSrcAddr data) := fun _ => write_row .srcAddr data
theorem wrDstAddr (data : Word) : Statement (.wrDstAddr data) := fun _ => write_row .dstAddr data
theorem wrIrqEn (data : Word) : Statement (.wrIrqEn data) := fun _ => write_row .irqEn data
theorem wrStatus (data : Word) : Statement (.wrStatus data) := fun _ => write_row .status data
theorem wrPixelsDone (data : Word) : Statement (.wrPixelsDone data) := fun _ => write_row .pixelsDone data
theorem wrFaultAddr (data : Word) : Statement (.wrFaultAddr data) := fun _ => write_row .faultAddr data
theorem wrId (data : Word) : Statement (.wrId data) := fun _ => write_row .id data
theorem ctrlNop (rest : BitVec 30) : Statement (.ctrlNop rest) := fun _ => ctrl_row rest false false
theorem ctrlStart (rest : BitVec 30) : Statement (.ctrlStart rest) := fun _ => ctrl_row rest false true
theorem ctrlClear (rest : BitVec 30) : Statement (.ctrlClear rest) := fun _ => ctrl_row rest true false
theorem ctrlClearStart (rest : BitVec 30) : Statement (.ctrlClearStart rest) := fun _ => ctrl_row rest true true
theorem rdRsvd (off : Offset) : Statement (.rdRsvd off) := fun _ => transWord_and_fallbackMask _ _ _
theorem wrRsvd (off : Offset) (data : Word) : Statement (.wrRsvd off data) := fun _ => transWord_and_fallbackMask _ _ _
theorem pack1 : Statement .pack1 := fun _ => rfl
theorem pack2 : Statement .pack2 := fun _ => rfl
theorem pack3 : Statement .pack3 := fun _ => rfl
theorem packInvalid (bppp : Byte) : Statement (.packInvalid bppp) := fun _ => BitVec.and_zero

end Sys2Proof.Laws.RowMatch
end

