-- ==== Sys2Proof/Laws/State.lean ====
section
/-! SUPPORT. One lemma per field for each named update of State, true by rfl, and the fields a register write leaves alone. -/

namespace Sys2Proof.Machine

@[simp] theorem respond_srcCfg (r : Response) (s : State) : (respond r s).srcCfg = s.srcCfg := rfl
@[simp] theorem respond_srcMaxRG (r : Response) (s : State) : (respond r s).srcMaxRG = s.srcMaxRG := rfl
@[simp] theorem respond_srcMaxB (r : Response) (s : State) : (respond r s).srcMaxB = s.srcMaxB := rfl
@[simp] theorem respond_srcShift (r : Response) (s : State) : (respond r s).srcShift = s.srcShift := rfl
@[simp] theorem respond_dstCfg (r : Response) (s : State) : (respond r s).dstCfg = s.dstCfg := rfl
@[simp] theorem respond_dstMaxRG (r : Response) (s : State) : (respond r s).dstMaxRG = s.dstMaxRG := rfl
@[simp] theorem respond_dstMaxB (r : Response) (s : State) : (respond r s).dstMaxB = s.dstMaxB := rfl
@[simp] theorem respond_dstShift (r : Response) (s : State) : (respond r s).dstShift = s.dstShift := rfl
@[simp] theorem respond_bppp (r : Response) (s : State) : (respond r s).bppp = s.bppp := rfl
@[simp] theorem respond_len (r : Response) (s : State) : (respond r s).len = s.len := rfl
@[simp] theorem respond_srcAddr (r : Response) (s : State) : (respond r s).srcAddr = s.srcAddr := rfl
@[simp] theorem respond_dstAddr (r : Response) (s : State) : (respond r s).dstAddr = s.dstAddr := rfl
@[simp] theorem respond_irqEn (r : Response) (s : State) : (respond r s).irqEn = s.irqEn := rfl
@[simp] theorem respond_pixelsDone (r : Response) (s : State) : (respond r s).pixelsDone = s.pixelsDone := rfl
@[simp] theorem respond_faultAddr (r : Response) (s : State) : (respond r s).faultAddr = s.faultAddr := rfl
@[simp] theorem respond_engine (r : Response) (s : State) : (respond r s).engine = s.engine := rfl
@[simp] theorem respond_cause (r : Response) (s : State) : (respond r s).cause = s.cause := rfl
@[simp] theorem respond_lat (r : Response) (s : State) : (respond r s).lat = s.lat := rfl
@[simp] theorem respond_pix (r : Response) (s : State) : (respond r s).pix = s.pix := rfl
@[simp] theorem respond_byteIdx (r : Response) (s : State) : (respond r s).byteIdx = s.byteIdx := rfl
@[simp] theorem respond_phase (r : Response) (s : State) : (respond r s).phase = s.phase := rfl
@[simp] theorem respond_sp (r : Response) (s : State) : (respond r s).sp = s.sp := rfl
@[simp] theorem respond_dp (r : Response) (s : State) : (respond r s).dp = s.dp := rfl
@[simp] theorem respond_out (r : Response) (s : State) : (respond r s).out = s.out := rfl
@[simp] theorem respond_mem (r : Response) (s : State) : (respond r s).mem = s.mem := rfl
@[simp] theorem respond_plat (r : Response) (s : State) : (respond r s).plat = s.plat := rfl
@[simp] theorem respond_inputs (r : Response) (s : State) : (respond r s).inputs = s.inputs := rfl
@[simp] theorem respond_resp (r : Response) (s : State) : (respond r s).resp = r := rfl
@[simp] theorem respond_raced (r : Response) (s : State) : (respond r s).raced = s.raced := rfl
@[simp] theorem respond_draws (r : Response) (s : State) : (respond r s).draws = s.draws := rfl

@[simp] theorem raiseAbort_srcCfg (c : Cause) (a : Addr) (s : State) : (raiseAbort c a s).srcCfg = s.srcCfg := rfl
@[simp] theorem raiseAbort_srcMaxRG (c : Cause) (a : Addr) (s : State) : (raiseAbort c a s).srcMaxRG = s.srcMaxRG := rfl
@[simp] theorem raiseAbort_srcMaxB (c : Cause) (a : Addr) (s : State) : (raiseAbort c a s).srcMaxB = s.srcMaxB := rfl
@[simp] theorem raiseAbort_srcShift (c : Cause) (a : Addr) (s : State) : (raiseAbort c a s).srcShift = s.srcShift := rfl
@[simp] theorem raiseAbort_dstCfg (c : Cause) (a : Addr) (s : State) : (raiseAbort c a s).dstCfg = s.dstCfg := rfl
@[simp] theorem raiseAbort_dstMaxRG (c : Cause) (a : Addr) (s : State) : (raiseAbort c a s).dstMaxRG = s.dstMaxRG := rfl
@[simp] theorem raiseAbort_dstMaxB (c : Cause) (a : Addr) (s : State) : (raiseAbort c a s).dstMaxB = s.dstMaxB := rfl
@[simp] theorem raiseAbort_dstShift (c : Cause) (a : Addr) (s : State) : (raiseAbort c a s).dstShift = s.dstShift := rfl
@[simp] theorem raiseAbort_bppp (c : Cause) (a : Addr) (s : State) : (raiseAbort c a s).bppp = s.bppp := rfl
@[simp] theorem raiseAbort_len (c : Cause) (a : Addr) (s : State) : (raiseAbort c a s).len = s.len := rfl
@[simp] theorem raiseAbort_srcAddr (c : Cause) (a : Addr) (s : State) : (raiseAbort c a s).srcAddr = s.srcAddr := rfl
@[simp] theorem raiseAbort_dstAddr (c : Cause) (a : Addr) (s : State) : (raiseAbort c a s).dstAddr = s.dstAddr := rfl
@[simp] theorem raiseAbort_irqEn (c : Cause) (a : Addr) (s : State) : (raiseAbort c a s).irqEn = s.irqEn := rfl
@[simp] theorem raiseAbort_pixelsDone (c : Cause) (a : Addr) (s : State) : (raiseAbort c a s).pixelsDone = s.pixelsDone := rfl
@[simp] theorem raiseAbort_faultAddr (c : Cause) (a : Addr) (s : State) : (raiseAbort c a s).faultAddr = a := rfl
@[simp] theorem raiseAbort_engine (c : Cause) (a : Addr) (s : State) : (raiseAbort c a s).engine = .aborted := rfl
@[simp] theorem raiseAbort_cause (c : Cause) (a : Addr) (s : State) : (raiseAbort c a s).cause = c := rfl
@[simp] theorem raiseAbort_lat (c : Cause) (a : Addr) (s : State) : (raiseAbort c a s).lat = s.lat := rfl
@[simp] theorem raiseAbort_pix (c : Cause) (a : Addr) (s : State) : (raiseAbort c a s).pix = s.pix := rfl
@[simp] theorem raiseAbort_byteIdx (c : Cause) (a : Addr) (s : State) : (raiseAbort c a s).byteIdx = s.byteIdx := rfl
@[simp] theorem raiseAbort_phase (c : Cause) (a : Addr) (s : State) : (raiseAbort c a s).phase = s.phase := rfl
@[simp] theorem raiseAbort_sp (c : Cause) (a : Addr) (s : State) : (raiseAbort c a s).sp = s.sp := rfl
@[simp] theorem raiseAbort_dp (c : Cause) (a : Addr) (s : State) : (raiseAbort c a s).dp = s.dp := rfl
@[simp] theorem raiseAbort_out (c : Cause) (a : Addr) (s : State) : (raiseAbort c a s).out = s.out := rfl
@[simp] theorem raiseAbort_mem (c : Cause) (a : Addr) (s : State) : (raiseAbort c a s).mem = s.mem := rfl
@[simp] theorem raiseAbort_plat (c : Cause) (a : Addr) (s : State) : (raiseAbort c a s).plat = s.plat := rfl
@[simp] theorem raiseAbort_inputs (c : Cause) (a : Addr) (s : State) : (raiseAbort c a s).inputs = s.inputs := rfl
@[simp] theorem raiseAbort_resp (c : Cause) (a : Addr) (s : State) : (raiseAbort c a s).resp = s.resp := rfl
@[simp] theorem raiseAbort_raced (c : Cause) (a : Addr) (s : State) : (raiseAbort c a s).raced = s.raced := rfl
@[simp] theorem raiseAbort_draws (c : Cause) (a : Addr) (s : State) : (raiseAbort c a s).draws = s.draws := rfl

@[simp] theorem clearRecord_srcCfg (s : State) : (clearRecord s).srcCfg = s.srcCfg := rfl
@[simp] theorem clearRecord_srcMaxRG (s : State) : (clearRecord s).srcMaxRG = s.srcMaxRG := rfl
@[simp] theorem clearRecord_srcMaxB (s : State) : (clearRecord s).srcMaxB = s.srcMaxB := rfl
@[simp] theorem clearRecord_srcShift (s : State) : (clearRecord s).srcShift = s.srcShift := rfl
@[simp] theorem clearRecord_dstCfg (s : State) : (clearRecord s).dstCfg = s.dstCfg := rfl
@[simp] theorem clearRecord_dstMaxRG (s : State) : (clearRecord s).dstMaxRG = s.dstMaxRG := rfl
@[simp] theorem clearRecord_dstMaxB (s : State) : (clearRecord s).dstMaxB = s.dstMaxB := rfl
@[simp] theorem clearRecord_dstShift (s : State) : (clearRecord s).dstShift = s.dstShift := rfl
@[simp] theorem clearRecord_bppp (s : State) : (clearRecord s).bppp = s.bppp := rfl
@[simp] theorem clearRecord_len (s : State) : (clearRecord s).len = s.len := rfl
@[simp] theorem clearRecord_srcAddr (s : State) : (clearRecord s).srcAddr = s.srcAddr := rfl
@[simp] theorem clearRecord_dstAddr (s : State) : (clearRecord s).dstAddr = s.dstAddr := rfl
@[simp] theorem clearRecord_irqEn (s : State) : (clearRecord s).irqEn = s.irqEn := rfl
@[simp] theorem clearRecord_pixelsDone (s : State) : (clearRecord s).pixelsDone = 0 := rfl
@[simp] theorem clearRecord_faultAddr (s : State) : (clearRecord s).faultAddr = 0 := rfl
@[simp] theorem clearRecord_engine (s : State) : (clearRecord s).engine = .idle := rfl
@[simp] theorem clearRecord_cause (s : State) : (clearRecord s).cause = .none := rfl
@[simp] theorem clearRecord_lat (s : State) : (clearRecord s).lat = s.lat := rfl
@[simp] theorem clearRecord_pix (s : State) : (clearRecord s).pix = s.pix := rfl
@[simp] theorem clearRecord_byteIdx (s : State) : (clearRecord s).byteIdx = s.byteIdx := rfl
@[simp] theorem clearRecord_phase (s : State) : (clearRecord s).phase = s.phase := rfl
@[simp] theorem clearRecord_sp (s : State) : (clearRecord s).sp = s.sp := rfl
@[simp] theorem clearRecord_dp (s : State) : (clearRecord s).dp = s.dp := rfl
@[simp] theorem clearRecord_out (s : State) : (clearRecord s).out = s.out := rfl
@[simp] theorem clearRecord_mem (s : State) : (clearRecord s).mem = s.mem := rfl
@[simp] theorem clearRecord_plat (s : State) : (clearRecord s).plat = s.plat := rfl
@[simp] theorem clearRecord_inputs (s : State) : (clearRecord s).inputs = s.inputs := rfl
@[simp] theorem clearRecord_resp (s : State) : (clearRecord s).resp = s.resp := rfl
@[simp] theorem clearRecord_raced (s : State) : (clearRecord s).raced = s.raced := rfl
@[simp] theorem clearRecord_draws (s : State) : (clearRecord s).draws = s.draws := rfl

@[simp] theorem storeByte_srcCfg (a : Addr) (v : Byte) (s : State) : (storeByte a v s).srcCfg = s.srcCfg := rfl
@[simp] theorem storeByte_srcMaxRG (a : Addr) (v : Byte) (s : State) : (storeByte a v s).srcMaxRG = s.srcMaxRG := rfl
@[simp] theorem storeByte_srcMaxB (a : Addr) (v : Byte) (s : State) : (storeByte a v s).srcMaxB = s.srcMaxB := rfl
@[simp] theorem storeByte_srcShift (a : Addr) (v : Byte) (s : State) : (storeByte a v s).srcShift = s.srcShift := rfl
@[simp] theorem storeByte_dstCfg (a : Addr) (v : Byte) (s : State) : (storeByte a v s).dstCfg = s.dstCfg := rfl
@[simp] theorem storeByte_dstMaxRG (a : Addr) (v : Byte) (s : State) : (storeByte a v s).dstMaxRG = s.dstMaxRG := rfl
@[simp] theorem storeByte_dstMaxB (a : Addr) (v : Byte) (s : State) : (storeByte a v s).dstMaxB = s.dstMaxB := rfl
@[simp] theorem storeByte_dstShift (a : Addr) (v : Byte) (s : State) : (storeByte a v s).dstShift = s.dstShift := rfl
@[simp] theorem storeByte_bppp (a : Addr) (v : Byte) (s : State) : (storeByte a v s).bppp = s.bppp := rfl
@[simp] theorem storeByte_len (a : Addr) (v : Byte) (s : State) : (storeByte a v s).len = s.len := rfl
@[simp] theorem storeByte_srcAddr (a : Addr) (v : Byte) (s : State) : (storeByte a v s).srcAddr = s.srcAddr := rfl
@[simp] theorem storeByte_dstAddr (a : Addr) (v : Byte) (s : State) : (storeByte a v s).dstAddr = s.dstAddr := rfl
@[simp] theorem storeByte_irqEn (a : Addr) (v : Byte) (s : State) : (storeByte a v s).irqEn = s.irqEn := rfl
@[simp] theorem storeByte_pixelsDone (a : Addr) (v : Byte) (s : State) : (storeByte a v s).pixelsDone = s.pixelsDone := rfl
@[simp] theorem storeByte_faultAddr (a : Addr) (v : Byte) (s : State) : (storeByte a v s).faultAddr = s.faultAddr := rfl
@[simp] theorem storeByte_engine (a : Addr) (v : Byte) (s : State) : (storeByte a v s).engine = s.engine := rfl
@[simp] theorem storeByte_cause (a : Addr) (v : Byte) (s : State) : (storeByte a v s).cause = s.cause := rfl
@[simp] theorem storeByte_lat (a : Addr) (v : Byte) (s : State) : (storeByte a v s).lat = s.lat := rfl
@[simp] theorem storeByte_pix (a : Addr) (v : Byte) (s : State) : (storeByte a v s).pix = s.pix := rfl
@[simp] theorem storeByte_byteIdx (a : Addr) (v : Byte) (s : State) : (storeByte a v s).byteIdx = s.byteIdx := rfl
@[simp] theorem storeByte_phase (a : Addr) (v : Byte) (s : State) : (storeByte a v s).phase = s.phase := rfl
@[simp] theorem storeByte_sp (a : Addr) (v : Byte) (s : State) : (storeByte a v s).sp = s.sp := rfl
@[simp] theorem storeByte_dp (a : Addr) (v : Byte) (s : State) : (storeByte a v s).dp = s.dp := rfl
@[simp] theorem storeByte_out (a : Addr) (v : Byte) (s : State) : (storeByte a v s).out = s.out := rfl
@[simp] theorem storeByte_mem (a : Addr) (v : Byte) (s : State) : (storeByte a v s).mem = s.mem.set a.toNat v := rfl
@[simp] theorem storeByte_plat (a : Addr) (v : Byte) (s : State) : (storeByte a v s).plat = s.plat := rfl
@[simp] theorem storeByte_inputs (a : Addr) (v : Byte) (s : State) : (storeByte a v s).inputs = s.inputs := rfl
@[simp] theorem storeByte_resp (a : Addr) (v : Byte) (s : State) : (storeByte a v s).resp = s.resp := rfl
@[simp] theorem storeByte_raced (a : Addr) (v : Byte) (s : State) : (storeByte a v s).raced = s.raced := rfl
@[simp] theorem storeByte_draws (a : Addr) (v : Byte) (s : State) : (storeByte a v s).draws = s.draws := rfl

@[simp] theorem beginConversion_srcCfg (s : State) : (beginConversion s).srcCfg = s.srcCfg := rfl
@[simp] theorem beginConversion_srcMaxRG (s : State) : (beginConversion s).srcMaxRG = s.srcMaxRG := rfl
@[simp] theorem beginConversion_srcMaxB (s : State) : (beginConversion s).srcMaxB = s.srcMaxB := rfl
@[simp] theorem beginConversion_srcShift (s : State) : (beginConversion s).srcShift = s.srcShift := rfl
@[simp] theorem beginConversion_dstCfg (s : State) : (beginConversion s).dstCfg = s.dstCfg := rfl
@[simp] theorem beginConversion_dstMaxRG (s : State) : (beginConversion s).dstMaxRG = s.dstMaxRG := rfl
@[simp] theorem beginConversion_dstMaxB (s : State) : (beginConversion s).dstMaxB = s.dstMaxB := rfl
@[simp] theorem beginConversion_dstShift (s : State) : (beginConversion s).dstShift = s.dstShift := rfl
@[simp] theorem beginConversion_bppp (s : State) : (beginConversion s).bppp = s.bppp := rfl
@[simp] theorem beginConversion_len (s : State) : (beginConversion s).len = s.len := rfl
@[simp] theorem beginConversion_srcAddr (s : State) : (beginConversion s).srcAddr = s.srcAddr := rfl
@[simp] theorem beginConversion_dstAddr (s : State) : (beginConversion s).dstAddr = s.dstAddr := rfl
@[simp] theorem beginConversion_irqEn (s : State) : (beginConversion s).irqEn = s.irqEn := rfl
@[simp] theorem beginConversion_pixelsDone (s : State) : (beginConversion s).pixelsDone = s.pixelsDone := rfl
@[simp] theorem beginConversion_faultAddr (s : State) : (beginConversion s).faultAddr = 0 := rfl
@[simp] theorem beginConversion_engine (s : State) : (beginConversion s).engine = .busy := rfl
@[simp] theorem beginConversion_cause (s : State) : (beginConversion s).cause = .none := rfl
@[simp] theorem beginConversion_lat (s : State) : (beginConversion s).lat = latchedOf s := rfl
@[simp] theorem beginConversion_pix (s : State) : (beginConversion s).pix = 0 := rfl
@[simp] theorem beginConversion_byteIdx (s : State) : (beginConversion s).byteIdx = 0 := rfl
@[simp] theorem beginConversion_phase (s : State) : (beginConversion s).phase = .read := rfl
@[simp] theorem beginConversion_sp (s : State) : (beginConversion s).sp = s.srcAddr := rfl
@[simp] theorem beginConversion_dp (s : State) : (beginConversion s).dp = s.dstAddr := rfl
@[simp] theorem beginConversion_out (s : State) : (beginConversion s).out = s.out := rfl
@[simp] theorem beginConversion_mem (s : State) : (beginConversion s).mem = s.mem := rfl
@[simp] theorem beginConversion_plat (s : State) : (beginConversion s).plat = s.plat := rfl
@[simp] theorem beginConversion_inputs (s : State) : (beginConversion s).inputs = s.inputs := rfl
@[simp] theorem beginConversion_resp (s : State) : (beginConversion s).resp = s.resp := rfl
@[simp] theorem beginConversion_raced (s : State) : (beginConversion s).raced = [] := rfl
@[simp] theorem beginConversion_draws (s : State) : (beginConversion s).draws = s.draws := rfl

@[simp] theorem advance_srcCfg (s : State) : (advance s).srcCfg = s.srcCfg := rfl
@[simp] theorem advance_srcMaxRG (s : State) : (advance s).srcMaxRG = s.srcMaxRG := rfl
@[simp] theorem advance_srcMaxB (s : State) : (advance s).srcMaxB = s.srcMaxB := rfl
@[simp] theorem advance_srcShift (s : State) : (advance s).srcShift = s.srcShift := rfl
@[simp] theorem advance_dstCfg (s : State) : (advance s).dstCfg = s.dstCfg := rfl
@[simp] theorem advance_dstMaxRG (s : State) : (advance s).dstMaxRG = s.dstMaxRG := rfl
@[simp] theorem advance_dstMaxB (s : State) : (advance s).dstMaxB = s.dstMaxB := rfl
@[simp] theorem advance_dstShift (s : State) : (advance s).dstShift = s.dstShift := rfl
@[simp] theorem advance_bppp (s : State) : (advance s).bppp = s.bppp := rfl
@[simp] theorem advance_len (s : State) : (advance s).len = s.len := rfl
@[simp] theorem advance_srcAddr (s : State) : (advance s).srcAddr = s.srcAddr := rfl
@[simp] theorem advance_dstAddr (s : State) : (advance s).dstAddr = s.dstAddr := rfl
@[simp] theorem advance_irqEn (s : State) : (advance s).irqEn = s.irqEn := rfl
@[simp] theorem advance_pixelsDone (s : State) : (advance s).pixelsDone = s.pix + 1 := rfl
@[simp] theorem advance_faultAddr (s : State) : (advance s).faultAddr = s.faultAddr := rfl
@[simp] theorem advance_engine (s : State) : (advance s).engine = s.engine := rfl
@[simp] theorem advance_cause (s : State) : (advance s).cause = s.cause := rfl
@[simp] theorem advance_lat (s : State) : (advance s).lat = s.lat := rfl
@[simp] theorem advance_pix (s : State) : (advance s).pix = s.pix + 1 := rfl
@[simp] theorem advance_byteIdx (s : State) : (advance s).byteIdx = 0 := rfl
@[simp] theorem advance_phase (s : State) : (advance s).phase = .read := rfl
@[simp] theorem advance_sp (s : State) : (advance s).sp = s.sp + 4 := rfl
@[simp] theorem advance_dp (s : State) : (advance s).dp = s.dp := rfl
@[simp] theorem advance_out (s : State) : (advance s).out = s.out := rfl
@[simp] theorem advance_mem (s : State) : (advance s).mem = s.mem := rfl
@[simp] theorem advance_plat (s : State) : (advance s).plat = s.plat := rfl
@[simp] theorem advance_inputs (s : State) : (advance s).inputs = s.inputs := rfl
@[simp] theorem advance_resp (s : State) : (advance s).resp = s.resp := rfl
@[simp] theorem advance_raced (s : State) : (advance s).raced = s.raced := rfl
@[simp] theorem advance_draws (s : State) : (advance s).draws = s.draws := rfl

@[simp] theorem completeStep_srcCfg (s : State) : (completeStep s).srcCfg = s.srcCfg := rfl
@[simp] theorem completeStep_srcMaxRG (s : State) : (completeStep s).srcMaxRG = s.srcMaxRG := rfl
@[simp] theorem completeStep_srcMaxB (s : State) : (completeStep s).srcMaxB = s.srcMaxB := rfl
@[simp] theorem completeStep_srcShift (s : State) : (completeStep s).srcShift = s.srcShift := rfl
@[simp] theorem completeStep_dstCfg (s : State) : (completeStep s).dstCfg = s.dstCfg := rfl
@[simp] theorem completeStep_dstMaxRG (s : State) : (completeStep s).dstMaxRG = s.dstMaxRG := rfl
@[simp] theorem completeStep_dstMaxB (s : State) : (completeStep s).dstMaxB = s.dstMaxB := rfl
@[simp] theorem completeStep_dstShift (s : State) : (completeStep s).dstShift = s.dstShift := rfl
@[simp] theorem completeStep_bppp (s : State) : (completeStep s).bppp = s.bppp := rfl
@[simp] theorem completeStep_len (s : State) : (completeStep s).len = s.len := rfl
@[simp] theorem completeStep_srcAddr (s : State) : (completeStep s).srcAddr = s.srcAddr := rfl
@[simp] theorem completeStep_dstAddr (s : State) : (completeStep s).dstAddr = s.dstAddr := rfl
@[simp] theorem completeStep_irqEn (s : State) : (completeStep s).irqEn = s.irqEn := rfl
@[simp] theorem completeStep_pixelsDone (s : State) : (completeStep s).pixelsDone = s.pixelsDone := rfl
@[simp] theorem completeStep_faultAddr (s : State) : (completeStep s).faultAddr = s.faultAddr := rfl
@[simp] theorem completeStep_engine (s : State) : (completeStep s).engine = .done := rfl
@[simp] theorem completeStep_cause (s : State) : (completeStep s).cause = s.cause := rfl
@[simp] theorem completeStep_lat (s : State) : (completeStep s).lat = s.lat := rfl
@[simp] theorem completeStep_pix (s : State) : (completeStep s).pix = s.pix := rfl
@[simp] theorem completeStep_byteIdx (s : State) : (completeStep s).byteIdx = s.byteIdx := rfl
@[simp] theorem completeStep_phase (s : State) : (completeStep s).phase = s.phase := rfl
@[simp] theorem completeStep_sp (s : State) : (completeStep s).sp = s.sp := rfl
@[simp] theorem completeStep_dp (s : State) : (completeStep s).dp = s.dp := rfl
@[simp] theorem completeStep_out (s : State) : (completeStep s).out = s.out := rfl
@[simp] theorem completeStep_mem (s : State) : (completeStep s).mem = s.mem := rfl
@[simp] theorem completeStep_plat (s : State) : (completeStep s).plat = s.plat := rfl
@[simp] theorem completeStep_inputs (s : State) : (completeStep s).inputs = s.inputs := rfl
@[simp] theorem completeStep_resp (s : State) : (completeStep s).resp = s.resp := rfl
@[simp] theorem completeStep_raced (s : State) : (completeStep s).raced = s.raced := rfl
@[simp] theorem completeStep_draws (s : State) : (completeStep s).draws = s.draws := rfl

@[simp] theorem writeReg_pixelsDone (r : RegName) (d : Word) (s : State) : (writeReg r d s).pixelsDone = s.pixelsDone := by
  cases r <;> rfl
@[simp] theorem writeReg_faultAddr (r : RegName) (d : Word) (s : State) : (writeReg r d s).faultAddr = s.faultAddr := by
  cases r <;> rfl
@[simp] theorem writeReg_engine (r : RegName) (d : Word) (s : State) : (writeReg r d s).engine = s.engine := by
  cases r <;> rfl
@[simp] theorem writeReg_cause (r : RegName) (d : Word) (s : State) : (writeReg r d s).cause = s.cause := by
  cases r <;> rfl
@[simp] theorem writeReg_lat (r : RegName) (d : Word) (s : State) : (writeReg r d s).lat = s.lat := by
  cases r <;> rfl
@[simp] theorem writeReg_pix (r : RegName) (d : Word) (s : State) : (writeReg r d s).pix = s.pix := by
  cases r <;> rfl
@[simp] theorem writeReg_byteIdx (r : RegName) (d : Word) (s : State) : (writeReg r d s).byteIdx = s.byteIdx := by
  cases r <;> rfl
@[simp] theorem writeReg_phase (r : RegName) (d : Word) (s : State) : (writeReg r d s).phase = s.phase := by
  cases r <;> rfl
@[simp] theorem writeReg_sp (r : RegName) (d : Word) (s : State) : (writeReg r d s).sp = s.sp := by
  cases r <;> rfl
@[simp] theorem writeReg_dp (r : RegName) (d : Word) (s : State) : (writeReg r d s).dp = s.dp := by
  cases r <;> rfl
@[simp] theorem writeReg_out (r : RegName) (d : Word) (s : State) : (writeReg r d s).out = s.out := by
  cases r <;> rfl
@[simp] theorem writeReg_mem (r : RegName) (d : Word) (s : State) : (writeReg r d s).mem = s.mem := by
  cases r <;> rfl
@[simp] theorem writeReg_plat (r : RegName) (d : Word) (s : State) : (writeReg r d s).plat = s.plat := by
  cases r <;> rfl
@[simp] theorem writeReg_inputs (r : RegName) (d : Word) (s : State) : (writeReg r d s).inputs = s.inputs := by
  cases r <;> rfl
@[simp] theorem writeReg_resp (r : RegName) (d : Word) (s : State) : (writeReg r d s).resp = s.resp := by
  cases r <;> rfl
@[simp] theorem writeReg_raced (r : RegName) (d : Word) (s : State) : (writeReg r d s).raced = s.raced := by
  cases r <;> rfl
@[simp] theorem writeReg_draws (r : RegName) (d : Word) (s : State) : (writeReg r d s).draws = s.draws := by
  cases r <;> rfl

/-- A write to a read-only register, or to CTRL's absent storage, changes no state. -/
theorem writeReg_readOnly (d : Word) (s : State) :
    writeReg .status d s = s ∧ writeReg .pixelsDone d s = s ∧ writeReg .faultAddr d s = s ∧
      writeReg .id d s = s ∧ writeReg .ctrl d s = s :=
  ⟨rfl, rfl, rfl, rfl, rfl⟩

end Sys2Proof.Machine
end

