-- ==== Sys2Proof/Laws/Sequencer.lean ====
section
/-! SUPPORT. What the START sequence, the commands and the engine's steps can do, said once each. -/

namespace Sys2Proof.Machine

/-- `v[1:0] = 0` is divisibility by 4. -/
theorem lowTwo_eq_zero (a : Addr) : a.extractLsb' 0 2 = 0 ↔ a.toNat % 4 = 0 := by
  simp [← BitVec.toNat_inj, BitVec.extractLsb'_toNat]

/-- The format and width checks all pass exactly on the formats the source's contract accepts. -/
theorem formatCheck_eq_none (src dst : PixelFormat) (b : Byte) :
    formatCheck src dst b = none ↔ FormatsAccepted src dst b := by
  unfold formatCheck FormatsAccepted
  constructor
  · intro h
    repeat' split at h
    all_goals cases h
    refine ⟨?_, ?_, ?_, ?_, ?_, ?_, ?_⟩ <;> first | omega | tauto | simp_all
  · rintro ⟨h1, h2, h3, h4, h5, h6, h7⟩
    have h7' : ¬ ¬(b = 1 ∨ b = 2 ∨ b = 3) := not_not_intro h7
    simp only [h1, h2, h4, Bool.true_eq_false, ne_eq, not_true_eq_false, if_false, gt_iff_lt, Nat.not_lt.mpr h3,
      Nat.not_lt.mpr h5, Nat.not_lt.mpr h6, h7']

/-- The buffer checks all pass exactly on the buffers the contract accepts. -/
theorem bufferCheck_eq_none (S D : Addr) (n : Word) (b : Byte) :
    bufferCheck S D n b = none ↔ BuffersAccepted S D n b := by
  unfold bufferCheck BuffersAccepted srcEnd dstEnd
  by_cases h0 : n = 0
  · simp [h0]
  · simp only [h0, if_false, ne_eq, not_false_eq_true, true_implies]
    rw [← lowTwo_eq_zero]
    constructor
    · intro h
      repeat' split at h
      all_goals cases h
      simp_all
      omega
    · rintro ⟨h1, h2, h3, h4⟩
      have h5 : ¬ (S.toNat < D.toNat + b.toNat * n.toNat ∧ D.toNat < S.toNat + 4 * n.toNat) := by
        omega
      simp only [h1, not_true_eq_false, if_false, gt_iff_lt, Nat.not_lt.mpr h2, Nat.not_lt.mpr h3, h5]

/-- No START check fails exactly when the START is accepted (42_sequencer.md R171). -/
theorem startCheck_eq_none (s : State) : startCheck s = none ↔ StartAccepted s := by
  unfold startCheck StartAccepted
  rw [← formatCheck_eq_none, ← bufferCheck_eq_none]
  cases formatCheck (srcFormat s) (dstFormat s) (widthValue s) <;> simp

/-- The causes of a failed format check are codes 1 to 7. -/
theorem formatCheck_cause {src dst : PixelFormat} {b : Byte} {c : Cause}
    (h : formatCheck src dst b = some c) : c ≠ .none ∧ c ≠ .busRead ∧ c ≠ .busWrite := by
  unfold formatCheck at h
  repeat' split at h
  all_goals cases h
  all_goals decide

/-- The causes of a failed buffer check are codes 8 to 11. -/
theorem bufferCheck_cause {S D : Addr} {n : Word} {b : Byte} {p : Cause × Addr}
    (h : bufferCheck S D n b = some p) : p.1 ≠ .none ∧ p.1 ≠ .busRead ∧ p.1 ≠ .busWrite := by
  unfold bufferCheck at h
  repeat' split at h
  all_goals cases h
  all_goals exact ⟨nofun, nofun, nofun⟩

/-- A START check that fails has a cause, and not a bus error's. -/
theorem startCheck_cause {s : State} {p : Cause × Addr} (h : startCheck s = some p) :
    p.1 ≠ .none ∧ p.1 ≠ .busRead ∧ p.1 ≠ .busWrite := by
  unfold startCheck at h
  cases hf : formatCheck (srcFormat s) (dstFormat s) (widthValue s) with
  | some c => rw [hf] at h; cases h; exact formatCheck_cause hf
  | none => rw [hf] at h; exact bufferCheck_cause h

/-- What START can do: nothing, an abort, or the beginning of a conversion. -/
theorem commandStart_cases (s : State) :
    ((s.engine = .busy ∨ s.engine = .aborted) ∧ commandStart s = s) ∨
    ((s.engine = .idle ∨ s.engine = .done) ∧ StartAccepted s ∧
      commandStart s = beginConversion { s with pixelsDone := 0 }) ∨
    ((s.engine = .idle ∨ s.engine = .done) ∧ ∃ c a, startCheck s = some (c, a) ∧
      commandStart s = raiseAbort c a { s with pixelsDone := 0 }) := by
  unfold commandStart startSequence
  by_cases h : s.engine = .idle ∨ s.engine = .done
  · cases hc : startCheck s with
    | none => exact .inr (.inl ⟨h, (startCheck_eq_none s).mp hc, by simp [h]⟩)
    | some p => exact .inr (.inr ⟨h, p.1, p.2, rfl, by simp [h]⟩)
  · refine .inl ⟨?_, by simp [h]⟩
    cases he : s.engine <;> simp_all

/-- What CLEAR can do: nothing, or the return to IDLE. -/
theorem commandClear_cases (s : State) :
    ((s.engine = .idle ∨ s.engine = .busy) ∧ commandClear s = s) ∨
    ((s.engine = .done ∨ s.engine = .aborted) ∧ commandClear s = clearRecord s) := by
  unfold commandClear
  cases he : s.engine <;> simp

/-- What a read step can do: nothing where it is not enabled, a bus error, or the packed bytes held. -/
theorem readStep_cases (pack : Bool → Word → List Byte) (s : State) :
    (¬ readEnabled s ∧ readStep pack s = s) ∨
    (readEnabled s ∧ wordOk s.plat s.sp = false ∧ readStep pack s = raiseAbort .busRead s.sp s) ∨
    (readEnabled s ∧ wordOk s.plat s.sp = true ∧
      readStep pack s =
        { s with
          out := pack s.lat.dst.bigEndian (composedPixel s.lat (wordAt s s.sp))
          byteIdx := 0
          phase := .write }) := by
  unfold readStep memReadWord
  by_cases h : readEnabled s
  · cases hw : wordOk s.plat s.sp
    · exact .inr (.inl ⟨h, rfl, by simp [h]⟩)
    · exact .inr (.inr ⟨h, rfl, by simp [h]⟩)
  · exact .inl ⟨h, by simp [h]⟩

/-- What a write step can do: stop where no byte is held, a bus error, or one byte stored at `dp`. -/
theorem writeStep_cases {s : State} {o : Host.Outcome State Fault Refusal} (h : writeStep s = o) :
    (s.out[s.byteIdx.toNat]? = none ∧ o = .fault .noHeldByte) ∨
    (memOk s.plat s.dp = false ∧ o = .next (raiseAbort .busWrite s.dp s)) ∨
    (memOk s.plat s.dp = true ∧ pixelRaced s = false ∧ ∃ v, s.out[s.byteIdx.toNat]? = some v ∧
      o = .next (afterWrite (storeByte s.dp v s))) ∨
    (memOk s.plat s.dp = true ∧ pixelRaced s = true ∧
      o = .next (afterWrite (storeByte s.dp (Config.freeByte s.draws)
        { s with draws := s.draws + 1 }))) := by
  subst h
  unfold writeStep memWriteByte
  cases ho : s.out[s.byteIdx.toNat]? with
  | none => exact .inl ⟨rfl, rfl⟩
  | some v =>
    cases hm : memOk s.plat s.dp
    · refine .inr (.inl ⟨rfl, ?_⟩)
      cases pixelRaced s <;> simp
    · cases hr : pixelRaced s
      · exact .inr (.inr (.inl ⟨rfl, rfl, v, rfl, by simp⟩))
      · exact .inr (.inr (.inr ⟨rfl, rfl, by simp⟩))

/-- What follows a byte written: the next byte of the pixel, or the next pixel. -/
theorem afterWrite_cases (s : State) :
    ((s.byteIdx + 1).toNat ≠ s.lat.bppp.toNat ∧
      afterWrite s = { s with dp := s.dp + 1, byteIdx := s.byteIdx + 1 }) ∨
    ((s.byteIdx + 1).toNat = s.lat.bppp.toNat ∧
      afterWrite s = advance { s with dp := s.dp + 1, byteIdx := s.byteIdx + 1 }) := by
  unfold afterWrite
  by_cases h : (s.byteIdx + 1).toNat = s.lat.bppp.toNat
  · exact .inr ⟨h, by simp only [h, if_true]⟩
  · exact .inl ⟨h, by simp only [h, if_false]⟩

end Sys2Proof.Machine
end

