-- ==== Sys2Proof/Laws/Step.lean ====
section
/-! SUPPORT. What a step can do, said once: which operation or which other event it is. -/

namespace Sys2Proof.Machine

/-- What exec can answer: every operation has a next state. -/
theorem exec_next (i : Instr) (s : State) : ∃ t, exec i s = .next t := by
  cases i <;> exact ⟨_, rfl⟩

/-- What the engine's turn can be (42_sequencer.md R174 to R177). -/
theorem engineTurn_cases (s : State) :
    (s.phase = .write ∧ engineTurn s = .other (writeStep s)) ∨
    (s.phase = .read ∧ s.pix.toNat < s.lat.len.toNat ∧
      engineTurn s = .run (decodePack s.lat.bppp) s) ∨
    (s.phase = .read ∧ s.pix = s.lat.len ∧ engineTurn s = .other (.next (completeStep s))) ∨
    (s.phase = .read ∧ s.lat.len.toNat < s.pix.toNat ∧
      engineTurn s = .other (.fault .noEngineStep)) := by
  unfold engineTurn
  cases hp : s.phase with
  | write => exact .inl ⟨rfl, rfl⟩
  | read =>
    by_cases h1 : s.pix.toNat < s.lat.len.toNat
    · exact .inr (.inl ⟨rfl, h1, by simp [h1]⟩)
    · by_cases h2 : s.pix = s.lat.len
      · exact .inr (.inr (.inl ⟨rfl, h2, by simp [h2]⟩))
      · have h3 : s.pix.toNat ≠ s.lat.len.toNat := fun e => h2 (BitVec.eq_of_toNat_eq e)
        exact .inr (.inr (.inr ⟨rfl, by omega, by simp [h1, h2]⟩))

/-- What moves next: nothing, the engine (one step fewer for an input that waits), or the input served. -/
theorem fetchNext_cases (s : State) :
    (s.inputs = [] ∧ s.engine ≠ .busy ∧ fetchNext s = .other (.next s)) ∨
    (s.engine = .busy ∧ ∃ xs,
      ((s.inputs = [] ∧ xs = []) ∨
        ∃ n x tail, s.inputs = { after := n + 1, act := x } :: tail ∧
          xs = { after := n, act := x } :: tail) ∧
      fetchNext s = engineTurn { s with inputs := xs }) ∨
    (∃ n x rest, s.inputs = { after := n, act := x } :: rest ∧ (s.engine ≠ .busy ∨ n = 0) ∧
      fetchNext s = serveInput x { s with inputs := rest }) := by
  unfold fetchNext
  cases hi : s.inputs with
  | nil =>
    by_cases hb : s.engine = .busy
    · have e : { s with inputs := [] } = s := by rw [← hi]
      exact .inr (.inl ⟨hb, [], .inl ⟨rfl, rfl⟩, by rw [e]; exact if_pos hb⟩)
    · exact .inl ⟨rfl, hb, by simp [hb]⟩
  | cons x rest =>
    obtain ⟨n, x⟩ := x
    by_cases hb : s.engine = .busy ∧ n ≠ 0
    · obtain ⟨m, rfl⟩ := Nat.exists_eq_succ_of_ne_zero hb.2
      exact .inr (.inl ⟨hb.1, _, .inr ⟨m, x, rest, rfl, rfl⟩, if_pos hb⟩)
    · exact .inr (.inr ⟨n, x, rest, rfl, by tauto, if_neg hb⟩)

/-- What serving a host access can be: no effect on the block with an answer, or an operation. -/
theorem serveAccess_cases (a : HostAccess) (s : State) :
    (∃ r, serveAccess a s = .other (.next (respond r s))) ∨
    (∃ off i, windowOffset s.plat a.addr = some off ∧ legalAccess off a.bytes = true ∧
      decode (.mmio (accessWord off a)) = .ok i ∧ serveAccess a s = .run i s) := by
  unfold serveAccess
  cases hw : windowOffset s.plat a.addr with
  | none => exact .inl ⟨_, rfl⟩
  | some off =>
    by_cases hl : legalAccess off a.bytes = true
    · simp only [hl, if_true]
      cases hd : decode (.mmio (accessWord off a)) with
      | error e => exact .inl ⟨_, rfl⟩
      | ok i => exact .inr ⟨off, i, rfl, hl, hd, rfl⟩
    · exact .inl ⟨_, by simp only [hl]; rfl⟩

/-- No step. -/
theorem run_zero (s : State) : Sys2Proof.core.run 0 s = .next s := rfl

/-- One step first. -/
theorem run_succ (n : Nat) (s : State) :
    Sys2Proof.core.run (n + 1) s =
      match step s with
      | .next t => Sys2Proof.core.run n t
      | .fault r => .fault r
      | .refused r => .refused r := by
  refine (Host.Core.run.eq_2 Sys2Proof.core s n).trans ?_
  have : Sys2Proof.core.step s = step s := rfl
  rw [this]
  cases step s <;> rfl

/-- A run goes on from the state a step gives. -/
theorem run_succ_next {n : Nat} {s t : State} (h : step s = .next t) :
    Sys2Proof.core.run (n + 1) s = Sys2Proof.core.run n t := by
  rw [run_succ, h]

/-- A run of `m + n` steps is one of `m` and then one of `n`. -/
theorem run_add {m n : Nat} {s t : State} (h : Sys2Proof.core.run m s = .next t) :
    Sys2Proof.core.run (m + n) s = Sys2Proof.core.run n t := by
  induction m generalizing s with
  | zero => cases h; rw [Nat.zero_add]
  | succ m ih =>
    rw [Nat.succ_add, run_succ]
    rw [run_succ] at h
    cases hs : step s with
    | next u => rw [hs] at h; exact ih h
    | fault r => rw [hs] at h; cases h
    | refused r => rw [hs] at h; cases h

end Sys2Proof.Machine
end

