-- ==== Sys2Proof/Tests/Slice0.lean ====
section
/-! SUPPORT. Tests: the smoke test of WellFormed, words written out from the spec's encodings, vectors of 95_test_vectors.md,
and for every statement with hypotheses a witness that meets them. -/

open Sys2Proof Sys2Proof.Machine Sys2Proof.Spec

namespace Sys2Proof.Tests

/-! ### Helpers -/

/-- The base registers of 95_test_vectors.md section 2.3 (SRC888 to DST565LE, two pixels, 0x1000 to
0x2000) with the source words 0x00FF8040 and 0xFF123456. -/
def base : State :=
  { State.reset with
    srcCfg := 0x00021820, srcMaxRG := 0x00FF00FF, srcMaxB := 0x000000FF, srcShift := 0x00000810
    dstCfg := 0x00021010, dstMaxRG := 0x003F001F, dstMaxB := 0x0000001F, dstShift := 0x0000050B
    bppp := 2, len := 2, srcAddr := 0x1000, dstAddr := 0x2000
    mem := [(0x1000, 0x40), (0x1001, 0x80), (0x1002, 0xFF), (0x1004, 0x56), (0x1005, 0x34),
            (0x1006, 0x12), (0x1007, 0xFF)] }

/-- `base` with DST888_32LE_SH (shifts 24, 16, 8) and three bytes per pixel. -/
def base888 : State :=
  { base with
    dstCfg := 0x00021820, dstMaxRG := 0x00FF00FF, dstMaxB := 0x000000FF, dstShift := 0x00081018, bppp := 3 }

/-- The next state, if there is one. -/
def after : Host.Outcome State Fault Refusal → Option State
  | .next t => some t
  | _ => none

/-- One step on a transaction word placed where the step fetches. -/
def word (w : Nat) (s : State) : Option State := after (step (s.withFetchWord 48 w))

/-- What the transaction word is answered. -/
def answer (w : Nat) (s : State) : Option Response := (word w s).map State.resp

/-- `n` steps. -/
def steps (n : Nat) (s : State) : Option State := after (Sys2Proof.core.run n s)

/-- `n` bytes of memory from `a` on. -/
def bytes (a n : Nat) (s : State) : List Byte := (List.range n).map (fun k => Memory.get (a + k) s.mem)

/-- STATUS as read, and FAULT_ADDR. -/
def record (s : State) : Word × Addr := (statusWord s, s.faultAddr)

/-- The platform on which the bytes from `a` on, `n` of them, give a bus error. -/
def hole (a n : Nat) : Platform := { ppPage := 0, nativeEndian := .le, noMem := [⟨a, n, .absent⟩] }

/-- The platform of the window witnesses: PP_BASE = 0x5000. -/
def paged : Platform := { ppPage := 5, nativeEndian := .be, noMem := [] }

/-- `base` with a START accepted (Q1). -/
def busy : State := started base

/-- `busy` with the packed bytes of pixel 0 held, before its first byte is written. -/
def writing : State := { busy with out := [0x08, 0xFC], phase := .write }

/-- The abort of vector Q9. -/
def aborted : State := { base with engine := .aborted, cause := .bpppInvalid, bppp := 4, irqEn := 2 }

/-- A state of DONE with both pixels converted, DONE_IE set. -/
def finished : State := { started base with engine := .done, pix := 2, pixelsDone := 2, irqEn := 1 }

/-! ### WellFormed: an ill-formed term for each check -/

theorem test_wf_refuses_registers : (Instr.rdRsvd 0x044).wf = false ∧ (Instr.wrRsvd 0x000 5).wf = false := by
  decide

theorem test_wf_refuses_misaligned : (Instr.rdRsvd 0x049).wf = false ∧ (Instr.wrRsvd 0xFFE 5).wf = false := by
  decide

theorem test_wf_refuses_packers :
    (Instr.packInvalid 1).wf = false ∧ (Instr.packInvalid 2).wf = false ∧
    (Instr.packInvalid 3).wf = false := by decide

theorem test_wf_accepts_boundaries :
    (Instr.rdRsvd 0x048).wf = true ∧ (Instr.wrRsvd 0xFFC 0).wf = true ∧
    (Instr.packInvalid 0).wf = true ∧ (Instr.packInvalid 4).wf = true := by decide

/-! ### Decode: a word written out for every row (40_host_ops.md, 41_datapath.md), twelve hex digits -/

theorem test_decode_reads :
    [0x000000000000, 0x000400000000, 0x000800000000, 0x000c00000000, 0x001000000000, 0x001400000000,
     0x001800000000, 0x001c00000000, 0x002000000000, 0x002400000000, 0x002800000000, 0x002c00000000,
     0x003000000000, 0x003400000000, 0x003800000000, 0x003c00000000, 0x004000000000,
     0x004400000000].map (decodeTableWord 48) =
    [.rdSrcCfg, .rdSrcMaxRG, .rdSrcMaxB, .rdSrcShift, .rdDstCfg, .rdDstMaxRG, .rdDstMaxB, .rdDstShift,
     .rdBppp, .rdLen, .rdSrcAddr, .rdDstAddr, .rdCtrl, .rdStatus, .rdIrqEn, .rdPixelsDone,
     .rdFaultAddr, .rdId].map some := by decide

theorem test_decode_format_writes :
    [0x100000021820, 0x100400ff00ff, 0x1008000000ff, 0x100c00000810, 0x101000021010, 0x1014003f001f,
     0x10180000001f, 0x101c0000050b].map (decodeTableWord 48) =
    [.wrSrcCfg 0x21820, .wrSrcMaxRG 0xFF00FF, .wrSrcMaxB 0xFF, .wrSrcShift 0x810, .wrDstCfg 0x21010,
     .wrDstMaxRG 0x3F001F, .wrDstMaxB 0x1F, .wrDstShift 0x50B].map some := by decide

theorem test_decode_other_writes :
    [0x102000000002, 0x102400000002, 0x102800001000, 0x102c00002000, 0x103800000001, 0x1034ffffffff,
     0x103cffffffff, 0x1040ffffffff, 0x1044ffffffff].map (decodeTableWord 48) =
    [.wrBppp 2, .wrLen 2, .wrSrcAddr 0x1000, .wrDstAddr 0x2000, .wrIrqEn 1, .wrStatus 0xFFFFFFFF,
     .wrPixelsDone 0xFFFFFFFF, .wrFaultAddr 0xFFFFFFFF, .wrId 0xFFFFFFFF].map some := by decide

/-- DATA[31:2] of a command is no part of its selection (30_encoding.md R83). -/
theorem test_decode_commands :
    [0x103000000000, 0x103000000001, 0x103000000002, 0x103000000003, 0x103080000005].map
      (decodeTableWord 48) =
    [.ctrlNop 0, .ctrlStart 0, .ctrlClear 0, .ctrlClearStart 0, .ctrlStart 0x20000001].map some := by decide

theorem test_decode_reserved :
    [0x004800000000, 0x0ffc00000000, 0x1100ffffffff].map (decodeTableWord 48) =
    [.rdRsvd 0x048, .rdRsvd 0xFFC, .wrRsvd 0x100 0xFFFFFFFF].map some := by decide

theorem test_decode_pack_modes :
    [0, 1, 2, 3, 4, 255].map (decodeTableWord 8) =
    [.packInvalid 0, .pack1, .pack2, .pack3, .packInvalid 4, .packInvalid 255].map some := by decide

theorem test_decode_refuses_misaligned :
    decode (.mmio 0x000200000000) = .error .misalignedOffset ∧ decodeTableWord 48 0x103100000001 = none :=
  ⟨rfl, by decide⟩

theorem test_decode_refuses_bytes :
    decodeBytes [0, 0, 0, 0, 0, 0x20] = .error .topBitsSet ∧ decodeBytes [] = .error .badLength ∧
    decodeBytes [1, 0] = .error .badLength := ⟨rfl, rfl, rfl⟩

/-- `wr LEN, 2` is 0x102400000002 (30_encoding.md R93), the first byte least significant. -/
theorem test_decode_bytes :
    decodeBytes [0x02, 0x00, 0x00, 0x00, 0x24, 0x10] = .ok (.wrLen 2) ∧ decodeBytes [3] = .ok .pack3 :=
  ⟨rfl, rfl⟩

theorem test_encode_words :
    encode (.wrDstMaxRG 0x003F001F) = .mmio 0x1014003f001f ∧ encode .rdStatus = .mmio 0x003400000000 ∧
    encode (.ctrlClearStart 0) = .mmio 0x103000000003 ∧ encode (.packInvalid 4) = .pack 4 := by decide

/-! ### Registers: 95_test_vectors.md section 2.1 -/

/-- H1 to H4: the reads just after reset. -/
theorem test_reads_after_reset :
    answer 0x004400000000 .reset = some (.data 0x504B0001) ∧
    answer 0x003400000000 .reset = some (.data 0) ∧ answer 0x003000000000 .reset = some (.data 0) ∧
    answer 0x002c00000000 .reset = some (.data 0) := by decide

/-- The twelve configuration registers answer each its own value. -/
theorem test_reads_of_base :
    [0x000000000000, 0x000400000000, 0x000800000000, 0x000c00000000, 0x001000000000, 0x001400000000,
     0x001800000000, 0x001c00000000, 0x002000000000, 0x002400000000, 0x002800000000,
     0x002c00000000].map (fun w => answer w base) =
    [0x21820, 0xFF00FF, 0xFF, 0x810, 0x21010, 0x3F001F, 0x1F, 0x50B, 2, 2, 0x1000, 0x2000].map
      (fun d => some (.data d)) := by decide

/-- H5 to H10, H14: the reserved bits of a write of all ones are dropped. -/
theorem test_writes_drop_reserved_bits :
    [(0x1000ffffffff, 0x000000000000), (0x1004ffffffff, 0x000400000000),
     (0x1008ffffffff, 0x000800000000), (0x100cffffffff, 0x000c00000000),
     (0x1010ffffffff, 0x001000000000), (0x1014ffffffff, 0x001400000000),
     (0x1018ffffffff, 0x001800000000), (0x101cffffffff, 0x001c00000000),
     (0x1020ffffffff, 0x002000000000), (0x1038ffffffff, 0x003800000000)].map
      (fun p => (word p.1 .reset).bind (answer p.2)) =
    [0x3FFFF, 0xFFFFFFFF, 0xFFFF, 0xFFFFFF, 0x3FFFF, 0xFFFFFFFF, 0xFFFF, 0xFFFFFF, 0xFF, 3].map
      (fun d => some (.data d)) := by decide

/-- H6, H12, H13: a value outside the fields, and registers with no reserved bit. -/
theorem test_writes_store_fields :
    (word 0x101012345678 .reset).bind (answer 0x001000000000) = some (.data 0x5678) ∧
    (word 0x1024ffffffff .reset).bind (answer 0x002400000000) = some (.data 0xFFFFFFFF) ∧
    (word 0x102800001002 .reset).bind (answer 0x002800000000) = some (.data 0x1002) ∧
    (word 0x102c00002000 .reset).bind (answer 0x002c00000000) = some (.data 0x2000) := by decide

/-- H15 to H18, H24: a write to a read-only or reserved register completes and changes nothing. -/
theorem test_writes_ignored :
    [0x1034ffffffff, 0x103c00000005, 0x104000000005, 0x104400000000, 0x1100ffffffff,
     0x103000000000].map (fun w => word w aborted) =
    List.replicate 6 (some { aborted with resp := .done }) := by decide

/-- H22, H23: the reserved offsets read 0. -/
theorem test_reserved_reads :
    answer 0x004800000000 base = some (.data 0) ∧ answer 0x0ffc00000000 base = some (.data 0) := by decide

/-- H25: an 8-bit access, and a 32-bit access at offset 0x002, are refused with a bus error. -/
theorem test_illegal_access :
    after (step { base with inputs := [⟨0, .access ⟨true, 0x030, 1, 1⟩⟩] }) =
      some { base with resp := .busError } ∧
    after (step { base with inputs := [⟨0, .access ⟨false, 0x002, 4, 0⟩⟩] }) =
      some { base with resp := .busError } := by decide

/-- X2, X4 to X6: STATUS with the interrupt level. -/
theorem test_status_and_irq :
    answer 0x003400000000 finished = some (.data 0x006) ∧
    answer 0x003400000000 aborted = some (.data 0x707) ∧
    answer 0x003400000000 { aborted with irqEn := 1 } = some (.data 0x703) ∧
    answer 0x003400000000 { aborted with cause := .busWrite, irqEn := 3 } = some (.data 0xD07) := by decide

/-- R131: with STATE = DONE, `wr IRQ_EN, 1` raises the interrupt at once. -/
theorem test_irq_enable_is_a_level :
    (word 0x103800000001 { finished with irqEn := 0 }).bind (answer 0x003400000000) = some (.data 6) := by
  decide

/-- The progress and the record registers answer their own values. -/
theorem test_reads_of_the_record :
    answer 0x003c00000000 finished = some (.data 2) ∧ answer 0x003800000000 finished = some (.data 1) ∧
    answer 0x004000000000 { aborted with faultAddr := 0x1002 } = some (.data 0x1002) := by decide

/-! ### Commands: 95_test_vectors.md sections 2.1, 2.3 -/

/-- H21, Q1, Q2, Q9: STATUS and FAULT_ADDR after `ctrl start`. -/
theorem test_start :
    (word 0x103000000001 .reset).map record = some (0x103, 0) ∧
    (word 0x103000000001 base).map record = some (0x001, 0) ∧
    (word 0x103000000001 { base with srcCfg := 0x1820 }).map record = some (0x103, 0) ∧
    (word 0x103000000001 { base with bppp := 4 }).map record = some (0x703, 0) := by decide

/-- Q12 to Q18: the ends of the ranges. -/
theorem test_start_buffers :
    [{ base with srcAddr := 0xFFFFFFF8 }, { base with srcAddr := 0xFFFFFFF8, len := 3 },
     { base with dstAddr := 0xFFFFFFFE, len := 1 }, { base with dstAddr := 0xFFFFFFFE },
     { base with dstAddr := 0x0FFC }, { base with dstAddr := 0x0FFD }, { base with srcAddr := 0x1002 }].map
      (fun s => (word 0x103000000001 s).map record) =
    [(0x001, 0), (0x903, 0xFFFFFFF8), (0x001, 0), (0xA03, 0xFFFFFFFE), (0x001, 0), (0xB03, 0x0FFD),
     (0x803, 0x1002)].map some := by decide

/-- P4: CLEAR leaves ABORTED; a START in ABORTED is ignored. -/
theorem test_clear :
    (word 0x103000000002 aborted).map record = some (0, 0) ∧
    (word 0x103000000001 aborted).map record = some (0x707, 0) ∧
    (word 0x103000000002 busy).map record = some (0x001, 0) := by decide

/-- X12: CLEAR_START with the registers corrected; from BUSY both parts are ignored. -/
theorem test_clear_start :
    (word 0x103000000003 { aborted with bppp := 2 }).map record = some (0x001, 0) ∧
    word 0x103000000003 writing = some { writing with resp := .done } := by decide

/-! ### The datapath: 95_test_vectors.md section 2.2 -/

/-- RS2, RS3, RS5, RS12, RS20, RS23. -/
theorem test_rescale :
    [rescale 0xFF (channelWidth 0xFF) (channelWidth 0x1F), rescale 0x07 (channelWidth 0xFF) (channelWidth 0x1F),
     rescale 0x80 (channelWidth 0xFF) (channelWidth 0x3F), rescale 0x1F (channelWidth 0x1F) (channelWidth 0xFF),
     rescale 1 (channelWidth 1) (channelWidth 0xFFFF), rescale 0x8000 (channelWidth 0x8000) (channelWidth 0x1F)] =
    [0x1F, 0, 0x20, 0xF8, 0x8000, 0x80000] := by decide

/-- EX1, EX2, and a shift of 32. -/
theorem test_extract :
    extractField 0x00FF8040 16 0xFF = 0xFF ∧ extractField 0x00FF8040 8 0xFF = 0x80 ∧
    extractField 0x00FF8040 32 0xFF = 0 := by decide

/-- NZ1, NZ3, NZ4, NZ5. -/
theorem test_normalise :
    effectiveShifts 3 { PixelFormat.zero with bpp := 32, depth := 24, shift := ⟨24, 16, 8⟩ } = ⟨16, 8, 0⟩ ∧
    effectiveShifts 3 { PixelFormat.zero with bpp := 32, depth := 24, shift := ⟨40, 32, 32⟩ } = ⟨8, 0, 0⟩ ∧
    effectiveShifts 3 { PixelFormat.zero with bpp := 24, depth := 24, shift := ⟨24, 16, 8⟩ } = ⟨24, 16, 8⟩ ∧
    effectiveShifts 2 { PixelFormat.zero with bpp := 32, depth := 24, shift := ⟨24, 16, 8⟩ } = ⟨24, 16, 8⟩ := by
  decide

/-- V1, V9, V2, V10, V12: CONVERT_PIXEL. -/
theorem test_convert_pixel :
    convertPixel (latchedOf base) 0x00FF8040 = [0x08, 0xFC] ∧
    convertPixel (latchedOf base) 0xFF123456 = [0xAA, 0x11] ∧
    convertPixel (latchedOf { base with dstCfg := 0x31010 }) 0x00FF8040 = [0xFC, 0x08] ∧
    convertPixel (latchedOf { base888 with dstCfg := 0x31820 }) 0x00FF8040 = [0xFF, 0x80, 0x40] ∧
    convertPixel (latchedOf { base888 with dstCfg := 0x21818 }) 0x00FF8040 = [0x00, 0x40, 0x80] := by decide

/-! ### The engine: 95_test_vectors.md section 2.4 -/

/-- PK1, PK4, PK6: the packers on the engine's read step, and PACK_INVALID. -/
theorem test_pack_modes :
    (after (exec .pack1 busy)).map State.out = some [0x08] ∧
    (after (exec .pack2 busy)).map State.out = some [0x08, 0xFC] ∧
    (after (exec .pack3 busy)).map State.out = some [0x08, 0xFC, 0x00] ∧
    (after (exec (.packInvalid 4) busy)).map record = some (0x703, 0) := by decide

/-- The table words of the pack modes run at the engine's next read step. -/
theorem test_fetch_pack_words :
    (after (step (State.reset.withFetchWord 8 2))).map (fun s => (s.out, s.phase)) = some ([0, 0], .write) ∧
    (after (step (State.reset.withFetchWord 8 0))).map record = some (0x703, 0) := by decide

/-- The access trace of Q1: STATUS, PIXELS_DONE and the four bytes after seven steps. -/
theorem test_conversion_q1 :
    (steps 7 busy).map (fun s => (statusWord s, s.pixelsDone, bytes 0x2000 5 s)) =
      some (2, 2, [0x08, 0xFC, 0xAA, 0x11, 0x00]) := by decide

/-- P6: a write bus error at 0x2003 stops the conversion after its sixth step. -/
theorem test_write_bus_error :
    (steps 6 { busy with plat := hole 0x2003 1 }).map (fun s => (record s, s.pixelsDone, bytes 0x2000 4 s)) =
      some ((0xD03, 0x2003), 1, [0x08, 0xFC, 0xAA, 0x00]) := by decide

/-- B1: a read bus error at the second source word. -/
theorem test_read_bus_error :
    (steps 4 { busy with plat := hole 0x1004 4 }).map (fun s => (record s, s.pixelsDone, bytes 0x2000 4 s)) =
      some ((0xC03, 0x1004), 1, [0x08, 0xFC, 0x00, 0x00]) := by decide

/-! ### Witnesses: for each statement with hypotheses, operands and a state that meet all of them -/

/-- An aligned access of the window at PP_BASE = 0x5000, served while BUSY because it waits for no step. -/
def servedBusy (a : HostAccess) : State := { busy with plat := paged, inputs := [⟨0, .access a⟩] }

theorem witness_DecodeOfEncode :
    (Instr.rdRsvd 0x048).wf = true ∧ (Instr.wrRsvd 0xFFC 7).wf = true ∧ (Instr.packInvalid 255).wf = true ∧
    (Instr.ctrlStart 5).wf = true := by decide

theorem witness_EveryLegalTransactionWord :
    BitVec.extractLsb' 32 2 (0x0ffc00000005 : TransWord) = 0 ∧
    BitVec.extractLsb' 32 2 (0x0fff00000000 : TransWord) ≠ 0 ∧
    BitVec.extractLsb' 32 2 (0x000100000000 : TransWord) ≠ 0 := by decide

theorem witness_CommandRows :
    (0x1030fffffffc : TransWord) &&& 0x1fff00000003#45 = 0x103000000000 ∧
    (0x103000000005 : TransWord) &&& 0x1fff00000003#45 = 0x103000000001 ∧
    (0x103080000002 : TransWord) &&& 0x1fff00000003#45 = 0x103000000002 ∧
    (0x103000000007 : TransWord) &&& 0x1fff00000003#45 = 0x103000000003 := by decide

theorem witness_PackModeDecodes :
    ((0 : Byte).toNat = 0 ∨ 4 ≤ (0 : Byte).toNat) ∧ ((4 : Byte).toNat = 0 ∨ 4 ≤ (4 : Byte).toNat) ∧
    ((255 : Byte).toNat = 0 ∨ 4 ≤ (255 : Byte).toNat) := by decide

/-- In both forms of Served: BUSY with no step to wait for, and not BUSY with steps named. -/
theorem witness_Served :
    Served (servedBusy ⟨false, 0x5034, 4, 0⟩) (.access ⟨false, 0x5034, 4, 0⟩) [] ∧
    Served { base with inputs := [⟨7, .reset⟩] } .reset [] :=
  ⟨⟨0, rfl, .inr rfl⟩, ⟨7, rfl, .inl (by decide)⟩⟩

theorem witness_StepRunsTheDecodedTransaction :
    Served (servedBusy ⟨true, 0x5030, 4, 3⟩) (.access ⟨true, 0x5030, 4, 3⟩) [] ∧
    0x5030 = (servedBusy ⟨true, 0x5030, 4, 3⟩).plat.ppPage * 0x1000 + (0x030 : Offset).toNat ∧
    (0x030 : Offset).toNat % 4 = 0 ∧
    decode (.mmio (transWord true 0x030 3)) = .ok (.ctrlClearStart 0) :=
  ⟨⟨0, rfl, .inr rfl⟩, by decide, by decide, rfl⟩

theorem witness_StepRunsTheSelectedPackMode :
    busy.engine = .busy ∧ busy.phase = .read ∧ busy.pix.toNat < busy.lat.len.toNat ∧
    decode (.pack busy.lat.bppp) = .ok .pack2 ∧ busy.inputs = [] ∧
    { busy with inputs := [⟨1, .reset⟩] }.inputs = [⟨0 + 1, .reset⟩] :=
  ⟨rfl, rfl, by decide, rfl, rfl, rfl⟩

/-- A narrow access at the last byte of the window, and a 32-bit access at offset 0x002. -/
theorem witness_IllegalAccess :
    (Served (servedBusy ⟨true, 0x5FFF, 1, 1⟩) (.access ⟨true, 0x5FFF, 1, 1⟩) [] ∧
      0x5FFF = (servedBusy ⟨true, 0x5FFF, 1, 1⟩).plat.ppPage * 0x1000 + 0xFFF ∧ 0xFFF < 0x1000 ∧
      (1 ≠ 4 ∨ 0xFFF % 4 ≠ 0)) ∧
    (Served (servedBusy ⟨false, 0x5002, 4, 0⟩) (.access ⟨false, 0x5002, 4, 0⟩) [] ∧
      0x5002 = (servedBusy ⟨false, 0x5002, 4, 0⟩).plat.ppPage * 0x1000 + 0x002 ∧ 0x002 < 0x1000 ∧
      (4 ≠ 4 ∨ 0x002 % 4 ≠ 0)) :=
  ⟨⟨⟨0, rfl, .inr rfl⟩, by decide⟩, ⟨⟨0, rfl, .inr rfl⟩, by decide⟩⟩

/-- A read word with DATA, and write words with the largest DATA, match their rows. -/
theorem witness_ReadAndWriteRows :
    (0x004400000001 : TransWord) &&& 0x1fff00000000#45 = 0x004400000000 ∧
    (0x003400000000 : TransWord) &&& 0x1fff00000000#45 = 0x003400000000 ∧
    (0x1000ffffffff : TransWord) &&& 0x1fff00000000#45 = 0x100000000000 ∧
    (0x1038ffffffff : TransWord) &&& 0x1fff00000000#45 = 0x103800000000 ∧
    (0x1034ffffffff : TransWord) &&& 0x1fff00000000#45 = 0x103400000000 := by decide

/-- The first and the last reserved offset. -/
theorem witness_ReservedWords :
    0x048 ≤ (BitVec.extractLsb' 32 12 (0x004800000000 : TransWord)).toNat ∧
    (BitVec.extractLsb' 32 12 (0x004800000000 : TransWord)).toNat % 4 = 0 ∧
    0x048 ≤ (BitVec.extractLsb' 32 12 (0x1ffc00000000 : TransWord)).toNat ∧
    (BitVec.extractLsb' 32 12 (0x1ffc00000000 : TransWord)).toNat % 4 = 0 := by decide

/-- STATUS: both ways for IRQ to be 1. -/
theorem witness_StatusIrq :
    (finished.engine = .done ∧ finished.irqEn.getLsbD 0 = true) ∧
    (aborted.engine = .aborted ∧ aborted.irqEn.getLsbD 1 = true) := by decide

theorem witness_HostOperations : isHostOp (.ctrlClearStart 0) = true ∧ busy.engine = .busy := by decide

/-- From IDLE and from DONE. The ranges may end at 2^32 (Q12) and touch (Q20). -/
theorem witness_AcceptedStart :
    (base.engine = .idle ∧ StartAccepted base) ∧ (finished.engine = .done ∧ StartAccepted finished) ∧
    StartAccepted { base with srcAddr := 0xFFFFFFF8 } ∧ StartAccepted { base with dstAddr := 0x1008 } :=
  ⟨⟨rfl, by decide⟩, ⟨rfl, by decide⟩, by decide, by decide⟩

/-- The first check of all (H21), and the last, ALIAS (Q19). -/
theorem witness_StartReportsTheFirstFailingCheck :
    (State.reset.engine = .idle ∧ checks .reset = [] ++ (true, .srcNotTruecolour, 0) :: (checks .reset).drop 1) ∧
    (let s := { base with dstAddr := 0x1007 }
     s.engine = .idle ∧ checks s = (checks s).take 10 ++ (true, .alias_, 0x1007) :: [] ∧
      ∀ x ∈ (checks s).take 10, x.1 = false) := by decide

/-- Both sides of the equivalence hold of the base registers, and with LEN = 0 of unusable addresses; from IDLE
and from DONE. -/
theorem witness_StartWithNoFailingCheck :
    base.engine = .idle ∧ finished.engine = .done ∧ (∀ x ∈ checks finished, x.1 = false) ∧
    (∀ x ∈ checks base, x.1 = false) ∧ StartAccepted base ∧
    (∀ x ∈ checks { base with len := 0, srcAddr := 3, dstAddr := 0xFFFFFFFF }, x.1 = false) := by decide

theorem witness_StartIsIgnored : busy.engine = .busy ∧ aborted.engine = .aborted := by decide

theorem witness_Clear :
    finished.engine = .done ∧ aborted.engine = .aborted ∧ base.engine = .idle ∧ busy.engine = .busy := by decide

/-- An aborted state whose registers are accepted (X12), and a BUSY one. -/
theorem witness_ClearStart :
    ({ aborted with bppp := 2 }.engine ≠ .busy ∧ StartAccepted { aborted with bppp := 2 }) ∧
    busy.engine = .busy := by decide

theorem witness_Extract : 32 ≤ (32 : Byte).toNat ∧ 32 ≤ (255 : Byte).toNat := by decide

/-- Both clauses at their boundaries: equal widths of 16, and 16 bits to none. -/
theorem witness_RescaleIsExact :
    (16 ≤ 16 ∧ 65535 < 2 ^ 16 ∧ (16 : Nat) ≤ 16) ∧ (0 ≤ 16 ∧ 65535 < 2 ^ 16 ∧ ¬ (16 : Nat) ≤ 0) := by decide

/-- The SRC888 fields of V1 and V7a: only the red field changes; the fields are disjoint. -/
theorem witness_ChannelsAreIndependent :
    (0x00FF8040 : Word) &&& ~~~0x00FF0000 = 0x00008040 &&& ~~~0x00FF0000 ∧
    (0x00FF8040 : Word) &&& ~~~0x0000FF00 = 0x00FF0040 &&& ~~~0x0000FF00 ∧
    (0x00FF8040 : Word) &&& ~~~0x000000FF = 0x00FF8000 &&& ~~~0x000000FF ∧
    (latchedOf base).src.max.r.setWidth 32 <<< (latchedOf base).src.shift.r.toNat = (0x00FF0000 : Word) ∧
    (latchedOf base).src.max.g.setWidth 32 <<< (latchedOf base).src.shift.g.toNat = (0x0000FF00 : Word) ∧
    (latchedOf base).src.max.b.setWidth 32 <<< (latchedOf base).src.shift.b.toNat = (0x000000FF : Word) ∧
    (0x00FF0000 : Word) &&& 0x0000FF00 = 0 ∧ (0x00FF0000 : Word) &&& 0x000000FF = 0 ∧
    (0x0000FF00 : Word) &&& 0x000000FF = 0 := by decide

/-- SRC888 to DST888_32LE (V13). -/
theorem witness_RoundTrip :
    let L := latchedOf { base888 with dstShift := 0x0810 }
    L.dst.max = L.src.max ∧ L.srcBits = L.src.max.map channelWidth ∧
    L.dstBits = L.dst.max.map channelWidth ∧ L.effShift = L.src.shift := by decide

/-- The condition with depth at its bound, and three ways out of it. -/
theorem witness_Normaliser :
    ((3 : Byte).toNat = 3 ∧ (32 : Byte).toNat = 32 ∧ (24 : Byte).toNat ≤ 24) ∧
    ¬ ((2 : Byte).toNat = 3) ∧ ¬ ((24 : Byte).toNat = 32) ∧ ¬ ((25 : Byte).toNat ≤ 24) := by decide

theorem witness_ConvertPixel :
    (latchedOf { base with bppp := 1 }).bppp = 1 ∧ (latchedOf base).bppp = 2 ∧
    (latchedOf base888).bppp = 3 := by decide

theorem witness_SourceWord : base.plat.nativeEndian = .le ∧ { base with plat := paged }.plat.nativeEndian = .be :=
  ⟨rfl, rfl⟩

theorem witness_PackModesHold :
    busy.engine = .busy ∧ busy.phase = .read ∧ busy.pix.toNat < busy.lat.len.toNat ∧
    memOk busy.plat busy.sp = true ∧ memOk busy.plat (busy.sp + 1) = true ∧
    memOk busy.plat (busy.sp + 2) = true ∧ memOk busy.plat (busy.sp + 3) = true := by decide

/-- The first byte of the word fails, and the last alone. -/
theorem witness_ReadBusError :
    (let s := { busy with plat := hole 0x1000 1 }
     s.engine = .busy ∧ s.phase = .read ∧ s.pix.toNat < s.lat.len.toNat ∧ memOk s.plat s.sp = false) ∧
    (let s := { busy with plat := hole 0x1003 1 }
     s.engine = .busy ∧ s.phase = .read ∧ s.pix.toNat < s.lat.len.toNat ∧
      memOk s.plat (s.sp + 3) = false) := by decide

/-- PACK_INVALID at START, with the widths next to the legal ones and the largest. -/
theorem witness_PackInvalid (w : Word) (b : Byte) (h : (w, b) = (0, 0) ∨ (w, b) = (4, 4) ∨ (w, b) = (255, 255)) :
    let s := { base with bppp := w }
    s.engine = .idle ∧ decode (.pack (s.bppp.extractLsb' 0 8)) = .ok (.packInvalid b) ∧
    s.srcCfg.getLsbD 17 = true ∧ s.srcCfg.extractLsb' 0 8 = 32 ∧ (s.srcCfg.extractLsb' 8 8).toNat ≤ 32 ∧
    s.dstCfg.getLsbD 17 = true ∧ (s.dstCfg.extractLsb' 0 8).toNat ≤ 32 ∧
    (s.dstCfg.extractLsb' 8 8).toNat ≤ 24 := by
  rcases h with h | h | h <;> cases h <;> exact ⟨rfl, rfl, by decide⟩

theorem witness_PackModesWait :
    ¬ (base.engine = .busy ∧ base.phase = .read ∧ base.pix.toNat < base.lat.len.toNat) ∧
    ¬ (writing.engine = .busy ∧ writing.phase = .read ∧ writing.pix.toNat < writing.lat.len.toNat) := by decide

/-- The engine moves with nothing pending, and with an input that waits for one step and for two. -/
theorem witness_EngineMoves :
    EngineMoves writing [] ∧ EngineMoves { writing with inputs := [⟨1, .reset⟩] } [⟨0, .reset⟩] ∧
    EngineMoves { busy with inputs := [⟨2, .memRead 0x2000⟩, ⟨0, .reset⟩] } [⟨1, .memRead 0x2000⟩, ⟨0, .reset⟩] :=
  ⟨.inl ⟨rfl, rfl⟩, .inr ⟨0, _, _, rfl, rfl⟩, .inr ⟨1, _, _, rfl, rfl⟩⟩

/-- The first byte of a pixel, and the last, which advances. -/
theorem witness_WriteStep :
    (writing.engine = .busy ∧ writing.phase = .write ∧ writing.inputs = [] ∧ writing.mem.wf = true ∧
      writing.raced.contains writing.pix.toNat = false ∧ writing.out[writing.byteIdx.toNat]? = some 0x08 ∧
      memOk writing.plat writing.dp = true ∧ (writing.byteIdx + 1).toNat ≠ writing.lat.bppp.toNat) ∧
    { writing with byteIdx := 1 }.out[1]? = some 0xFC ∧ ((1 : BitVec 2) + 1).toNat = writing.lat.bppp.toNat := by
  decide

theorem witness_WriteBusError :
    let s := { writing with plat := hole 0x2000 1 }
    s.engine = .busy ∧ s.phase = .write ∧ s.inputs = [] ∧ s.byteIdx.toNat < s.out.length ∧
    memOk s.plat s.dp = false := by decide

theorem witness_Completion :
    { busy with pix := 2 }.engine = .busy ∧ { busy with pix := 2 }.phase = .read ∧
    { busy with pix := 2 }.inputs = [] ∧ { busy with pix := 2 }.pix = busy.lat.len := by decide

/-- Q23: LEN = 0 with unusable addresses. -/
theorem witness_ZeroLength :
    let s := { base with len := 0, srcAddr := 3, dstAddr := 0xFFFFFFFF }
    s.engine = .idle ∧ s.inputs = [] ∧ s.len = 0 ∧
    FormatsAccepted (srcFormat s) (dstFormat s) (widthValue s) := by decide

/-- The base state, and a destination that ends at 2^32 (Q14). -/
theorem witness_Conversion :
    (AloneFrom base ∧ ∀ k < base.len.toNat, PixelOk base k) ∧
    AloneFrom { base with dstAddr := 0xFFFFFFFE, len := 1 } := by
  refine ⟨⟨⟨.inl rfl, by decide, rfl, by decide⟩, fun k _ => ⟨rfl, fun j _ => rfl⟩⟩, .inl rfl, by decide, rfl, by decide⟩

/-- The first pixel's read fails, and the last's after the first has completed. -/
theorem witness_ReadBusErrorIsPrecise :
    (let s := { base with plat := hole 0x1003 1 }
     AloneFrom s ∧ 0 < s.len.toNat ∧ (∀ k' < 0, PixelOk s k') ∧ wordOk s.plat (srcWordAddr s 0) = false) ∧
    (let s := { base with plat := hole 0x1004 4 }
     AloneFrom s ∧ 1 < s.len.toNat ∧ (∀ k' < 1, PixelOk s k') ∧ wordOk s.plat (srcWordAddr s 1) = false) := by
  refine ⟨⟨⟨.inl rfl, by decide, rfl, by decide⟩, by decide, fun k' h => absurd h (Nat.not_lt_zero _), by decide⟩,
    ⟨.inl rfl, by decide, rfl, by decide⟩, by decide, fun k' h => ?_, by decide⟩
  obtain rfl : k' = 0 := by omega
  exact ⟨by decide, by decide⟩

/-- The very first byte fails, and the last byte of the last pixel. -/
theorem witness_WriteBusErrorIsPrecise :
    (let s := { base with plat := hole 0x2000 1 }
     AloneFrom s ∧ 0 < s.len.toNat ∧ 0 < (widthValue s).toNat ∧ (∀ k' < 0, PixelOk s k') ∧
      wordOk s.plat (srcWordAddr s 0) = true ∧ (∀ j' < 0, memOk s.plat (dstByteAddr s 0 j') = true) ∧
      memOk s.plat (dstByteAddr s 0 0) = false) ∧
    (let s := { base with plat := hole 0x2003 1 }
     AloneFrom s ∧ 1 < s.len.toNat ∧ 1 < (widthValue s).toNat ∧ (∀ k' < 1, PixelOk s k') ∧
      wordOk s.plat (srcWordAddr s 1) = true ∧ (∀ j' < 1, memOk s.plat (dstByteAddr s 1 j') = true) ∧
      memOk s.plat (dstByteAddr s 1 1) = false) := by
  refine ⟨⟨⟨.inl rfl, by decide, rfl, by decide⟩, by decide, by decide,
      fun k' h => absurd h (Nat.not_lt_zero _), by decide⟩,
    ⟨.inl rfl, by decide, rfl, by decide⟩, by decide, by decide, fun k' h => ?_, by decide⟩
  obtain rfl : k' = 0 := by omega
  exact ⟨by decide, by decide⟩

/-- A write of DST_CFG before a run of three steps of a conversion. -/
theorem witness_RunningConversion :
    writable .dstCfg = true ∧ busy.inputs = [] ∧
    (after (exec (writeInstr 0x31010 .dstCfg) busy)).isSome = true ∧ (steps 3 busy).isSome = true := by decide

/-- The invariant of a state with a conversion running. -/
theorem inv_busy : Inv busy := by
  refine ⟨by decide, by constructor <;> decide, fun _ => by constructor <;> decide, by decide⟩

/-- The invariant while a packed byte waits to be written. -/
theorem inv_writing : Inv writing := by
  refine ⟨by decide, by constructor <;> decide, fun _ => by constructor <;> decide, by decide⟩

/-- The invariant of an aborted state. -/
theorem inv_aborted : Inv aborted := by
  refine ⟨by decide, by constructor <;> decide, nofun, by decide⟩

/-- The first write step of Q1 changes byte 0x2000. -/
theorem witness_EngineWritesOnlyItsDestination :
    Inv writing ∧ writing.engine = .busy ∧ writing.inputs = [] ∧
    (after (step writing)).map (fun t => byteAt t 0x2000) = some 0x08 ∧ byteAt writing 0x2000 = 0 :=
  ⟨inv_writing, by decide⟩

/-- An outside read of the last destination byte of a running conversion, and of the byte after it. -/
theorem witness_OutsideRead :
    Served { busy with inputs := [⟨0, .memRead 0x2003⟩] } (.memRead 0x2003) [] ∧
    (busy.lat.dstAddr.toNat ≤ 0x2003 ∧
      0x2003 < busy.lat.dstAddr.toNat + busy.lat.bppp.toNat * busy.lat.len.toNat) ∧
    Served { busy with inputs := [⟨0, .memRead 0x2004⟩] } (.memRead 0x2004) [] ∧
    ¬ (0x2004 < busy.lat.dstAddr.toNat + busy.lat.bppp.toNat * busy.lat.len.toNat) :=
  ⟨⟨0, rfl, .inr rfl⟩, by decide, ⟨0, rfl, .inr rfl⟩, by decide⟩

/-- `busy` with an outside write of 9 to `a` served next. -/
def racing (a : Addr) : State := { busy with inputs := [⟨0, .memWrite a 9⟩] }

theorem inv_racing (a : Addr) : Inv (racing a) :=
  ⟨inv_busy.reserved, ⟨inv_busy.record.1, inv_busy.record.2, inv_busy.record.3, inv_busy.record.4,
    inv_busy.record.5, inv_busy.record.6, inv_busy.record.7⟩,
   fun _ => let c := inv_busy.conversion rfl
    ⟨c.1, c.2, c.3, c.4, c.5, c.6, c.7, c.8, c.9, c.10, c.11⟩, inv_busy.memory⟩

/-- An outside write to the last byte of the source, to the last of the destination, and past both. -/
theorem witness_OutsideWrite :
    (Inv (racing 0x1007) ∧ Served (racing 0x1007) (.memWrite 0x1007 9) [] ∧
      0x1000 ≤ 0x1007 ∧ 0x1007 < busy.lat.srcAddr.toNat + 4 * busy.lat.len.toNat) ∧
    (Inv (racing 0x2003) ∧ Served (racing 0x2003) (.memWrite 0x2003 9) [] ∧
      0x2000 ≤ 0x2003 ∧ 0x2003 < busy.lat.dstAddr.toNat + busy.lat.bppp.toNat * busy.lat.len.toNat) ∧
    (Inv (racing 0x2004) ∧ Served (racing 0x2004) (.memWrite 0x2004 9) [] ∧
      ¬ 0x2004 < busy.lat.srcAddr.toNat + 4 * busy.lat.len.toNat ∧
      ¬ 0x2004 < busy.lat.dstAddr.toNat + busy.lat.bppp.toNat * busy.lat.len.toNat) :=
  ⟨⟨inv_racing _, ⟨0, rfl, .inr rfl⟩, by decide⟩, ⟨inv_racing _, ⟨0, rfl, .inr rfl⟩, by decide⟩,
   ⟨inv_racing _, ⟨0, rfl, .inr rfl⟩, by decide⟩⟩

/-- A reset while a conversion runs, and one outside a conversion. -/
theorem witness_Reset :
    (Inv { busy with inputs := [⟨0, .reset⟩] } ∧ Served { busy with inputs := [⟨0, .reset⟩] } .reset []) ∧
    Served { aborted with inputs := [⟨4, .reset⟩] } .reset [] :=
  ⟨⟨⟨inv_busy.reserved, by constructor <;> decide, fun _ => by constructor <;> decide, by decide⟩,
    ⟨0, rfl, .inr rfl⟩⟩, ⟨4, rfl, .inl (by decide)⟩⟩

/-- States of the invariant that step: one while BUSY, one ABORTED; their memories are canonical. -/
theorem witness_Inv :
    Inv busy ∧ (after (step busy)).isSome = true ∧ Inv aborted ∧ (after (step aborted)).isSome = true ∧
    busy.mem.wf = true := ⟨inv_busy, by decide, inv_aborted, by decide, by decide⟩

/-- Each way on from ABORTED: the record stands, reset, CLEAR. -/
theorem witness_AbortRecord :
    aborted.engine = .aborted ∧ (after (step aborted)).isSome = true ∧
    (word 0x103000000002 aborted).map State.engine = some .idle ∧
    (after (step { aborted with inputs := [⟨0, .reset⟩] })).map State.engine = some .idle := by decide

/-- A narrow access that spells CLEAR serves no operation; the 32-bit one does. -/
theorem witness_ServesOperation :
    ServesOperation { aborted with inputs := [⟨0, .access ⟨true, 0x0030, 4, 2⟩⟩] } (.ctrlClear 0) ∧
    legalAccess 0x030 1 = false ∧ legalAccess 0x030 4 = true :=
  ⟨⟨_, _, 0x030, ⟨0, rfl, .inl (by decide)⟩, by decide, by decide, rfl⟩, by decide⟩

/-- The two transitions out of BUSY by the engine, with their hypotheses: the last step, and a bus error. -/
theorem witness_EngineTransitions :
    (after (step { busy with pix := 2, inputs := [⟨1, .reset⟩] })).map State.engine = some .done ∧
    Inv { busy with plat := hole 0x1000 1 } ∧ Inv { writing with plat := hole 0x2000 1 } ∧
    (after (step { writing with plat := hole 0x2000 1 })).map State.engine = some .aborted :=
  ⟨by decide, ⟨inv_busy.reserved, by constructor <;> decide, fun _ => by constructor <;> decide, by decide⟩,
    ⟨inv_writing.reserved, by constructor <;> decide, fun _ => by constructor <;> decide, by decide⟩, by decide⟩

/-- The bytes beside and inside a range of four, and the words that meet its first and its last byte alone. -/
theorem witness_MemOk :
    memOk (hole 0x1000 4) 0x0FFF = true ∧ memOk (hole 0x1000 4) 0x1000 = false ∧
    memOk (hole 0x1000 4) 0x1003 = false ∧ memOk (hole 0x1000 4) 0x1004 = true ∧
    wordOk (hole 0x1000 4) 0x0FFC = true ∧ wordOk (hole 0x1000 4) 0x0FFD = false ∧
    wordOk (hole 0x1000 4) 0x1003 = false ∧ wordOk (hole 0x1000 4) 0x1004 = true := by decide

/-- A read whose word has its last byte on a device, and a write onto one. -/
theorem witness_EngineAccessToAListedRange :
    let device : Region := ⟨0x1003, 0x1000, .device⟩
    let s := { busy with plat := { busy.plat with noMem := [device] } }
    let w := { writing with plat := { writing.plat with noMem := [device] } }
    (Inv s ∧ s.engine = .busy ∧ EngineMoves s [] ∧ device ∈ s.plat.noMem ∧ s.phase = .read ∧
      s.pix.toNat < s.lat.len.toNat ∧ (0x1003 : Addr) = s.sp + BitVec.ofNat 32 3) ∧
    Inv w ∧ EngineMoves w [] ∧ w.phase = .write ∧ (0x2000 : Addr) = w.dp :=
  ⟨⟨⟨inv_busy.reserved, by constructor <;> decide, fun _ => by constructor <;> decide, by decide⟩, rfl,
      .inl ⟨rfl, rfl⟩, by decide⟩,
    ⟨inv_writing.reserved, by constructor <;> decide, fun _ => by constructor <;> decide, by decide⟩,
    .inl ⟨rfl, rfl⟩, by decide⟩

theorem witness_EngineWaits :
    (State.reset.engine ≠ .busy ∧ State.reset.inputs = []) ∧ (finished.engine ≠ .busy ∧ finished.inputs = []) ∧
    aborted.engine ≠ .busy ∧ aborted.inputs = [] := by decide

/-- A step of each transition of R43: START accepted and refused, complete, bus error, CLEAR, reset. -/
theorem witness_Transitions :
    (word 0x103000000001 base).map State.engine = some .busy ∧
    (word 0x103000000001 .reset).map State.engine = some .aborted ∧
    (after (step { busy with pix := 2 })).map State.engine = some .done ∧
    (after (step { busy with plat := hole 0x1000 1 })).map State.engine = some .aborted ∧
    (word 0x103000000002 finished).map State.engine = some .idle ∧
    (after (step { busy with inputs := [⟨0, .reset⟩] })).map State.engine = some .idle := by decide

end Sys2Proof.Tests
end

section
/-! Proofs of the family 10_state.md, part 1: which event a step is, with the state it leaves, said once. -/

open Sys2Proof.Spec

namespace Sys2Proof.Machine

/-! ### What the operations of the table do -/

/-- The width selects one of the three packers (30_encoding.md R87). -/
abbrev PackerWidth (b : Byte) : Prop := b = 1 ∨ b = 2 ∨ b = 3

theorem exec_readInstr (r : RegName) (s : State) : exec (readInstr r) s = hostRead r s := by
  cases r <;> rfl

theorem exec_writeInstr {r : RegName} (hr : r ≠ .ctrl) (d : Word) (s : State) :
    exec (writeInstr d r) s = hostWrite r d s := by
  cases r with
  | ctrl => exact absurd rfl hr
  | _ => rfl

theorem ctrlInstr_cases (d : Word) :
    ∃ r, ctrlInstr d = .ctrlNop r ∨ ctrlInstr d = .ctrlStart r ∨ ctrlInstr d = .ctrlClear r ∨
      ctrlInstr d = .ctrlClearStart r := by
  refine ⟨d.extractLsb' 2 30, ?_⟩
  unfold ctrlInstr
  cases d.getLsbD 1 <;> cases d.getLsbD 0 <;> simp

/-- A width that has a packer runs the read step with that packer (42_sequencer.md R174). -/
theorem exec_decodePack_of_packer {b : Byte} (h : PackerWidth b) (s : State) :
    exec (decodePack b) s = .next (readStep (packBytes b) s) := by
  rcases h with rfl | rfl | rfl <;> rfl

/-- Any other width is the abort of 41_datapath.md R160. -/
theorem exec_decodePack_of_not_packer {b : Byte} (h : ¬ PackerWidth b) (s : State) :
    exec (decodePack b) s = .next (raiseAbort .bpppInvalid 0 s) := by
  obtain ⟨h1, h2, h3⟩ : b ≠ 1 ∧ b ≠ 2 ∧ b ≠ 3 := by tauto
  simp only [decodePack, h1, h2, h3, if_false]
  rfl

/-- What the operation of a legal host access does to the block: an answer alone, a register write, or a
command of CTRL. -/
inductive HostEffect (s : State) : Instr → State → Prop
  | answer (i : Instr) (r : Response) : HostEffect s i (respond r s)
  | write (i : Instr) (q : RegName) (d : Word) : HostEffect s i (respond .done (writeReg q d s))
  | start (r : BitVec 30) : HostEffect s (.ctrlStart r) (respond .done (commandStart s))
  | clear (r : BitVec 30) : HostEffect s (.ctrlClear r) (respond .done (commandClear s))
  | clearStart (r : BitVec 30) :
      HostEffect s (.ctrlClearStart r) (respond .done (commandStart (commandClear s)))

theorem hostEffect_of_ctrlInstr {d : Word} {s t : State} (h : exec (ctrlInstr d) s = .next t) :
    HostEffect s (ctrlInstr d) t := by
  obtain ⟨r, hi | hi | hi | hi⟩ := ctrlInstr_cases d <;> rw [hi] at h ⊢ <;> cases h
  · exact .answer _ _
  · exact .start r
  · exact .clear r
  · exact .clearStart r

theorem hostEffect_of_decode {w : TransWord} {i : Instr} {s t : State}
    (hd : decode (.mmio w) = .ok i) (h : exec i s = .next t) : HostEffect s i t := by
  obtain ⟨-, ⟨r, -, -, rfl⟩ | ⟨r, -, -, rfl⟩ | ⟨-, -, rfl⟩ | ⟨-, -, rfl⟩⟩ := decodeMmio_cases hd
  · rw [exec_readInstr] at h
    cases h
    exact .answer _ _
  · by_cases hr : r = .ctrl
    · subst hr
      exact hostEffect_of_ctrlInstr h
    · rw [exec_writeInstr hr] at h
      cases h
      exact .write _ r _
  · cases h
    exact .answer _ _
  · cases h
    exact .answer _ _

/-! ### What the engine's turn does -/

/-- The outcome of what moves next. -/
def Fetched.outcome : Fetched → Host.Outcome State Fault Refusal
  | .run i s => exec i s
  | .other o => o

theorem step_eq_outcome (s : State) : step s = (fetchNext s).outcome := by
  unfold step
  cases fetchNext s <;> rfl

/-- What the engine's turn does to the block (42_sequencer.md R174 to R179). -/
inductive EngineStep (s : State) : State → Prop
  | readError : s.phase = .read → s.pix.toNat < s.lat.len.toNat → wordOk s.plat s.sp = false →
      EngineStep s (raiseAbort .busRead s.sp s)
  | hold : s.phase = .read → s.pix.toNat < s.lat.len.toNat → PackerWidth s.lat.bppp →
      EngineStep s
        { s with out := convertPixel s.lat (wordAt s s.sp), byteIdx := 0, phase := .write }
  | noPacker : s.phase = .read → ¬ PackerWidth s.lat.bppp →
      EngineStep s (raiseAbort .bpppInvalid 0 s)
  | complete : s.phase = .read → s.pix = s.lat.len → EngineStep s (completeStep s)
  | writeError : s.phase = .write → memOk s.plat s.dp = false →
      EngineStep s (raiseAbort .busWrite s.dp s)
  | store (v : Byte) (k : Nat) : s.phase = .write → memOk s.plat s.dp = true →
      EngineStep s (afterWrite (storeByte s.dp v { s with draws := k }))

theorem engineStep_of_read {s t : State} (hb : s.engine = .busy) (hp : s.phase = .read)
    (hlt : s.pix.toNat < s.lat.len.toNat) (h : exec (decodePack s.lat.bppp) s = .next t) :
    EngineStep s t := by
  by_cases hw : PackerWidth s.lat.bppp
  · rw [exec_decodePack_of_packer hw] at h
    rcases readStep_cases (packBytes s.lat.bppp) s with ⟨hn, -⟩ | ⟨-, hok, hr⟩ | ⟨-, -, hr⟩
    · exact absurd ⟨hb, hp, hlt⟩ hn
    · rw [hr] at h
      cases h
      exact .readError hp hlt hok
    · rw [hr] at h
      cases h
      exact .hold hp hlt hw
  · rw [exec_decodePack_of_not_packer hw] at h
    cases h
    exact .noPacker hp hw

theorem engineStep_of_write {s t : State} (hp : s.phase = .write) (h : writeStep s = .next t) :
    EngineStep s t := by
  rcases writeStep_cases h with ⟨-, ht⟩ | ⟨hok, ht⟩ | ⟨hok, -, v, -, ht⟩ | ⟨hok, -, ht⟩ <;> cases ht
  · exact .writeError hp hok
  · exact .store v s.draws hp hok
  · exact .store _ (s.draws + 1) hp hok

theorem engineStep_of_engineTurn {s t : State} (hb : s.engine = .busy)
    (h : (engineTurn s).outcome = .next t) : EngineStep s t := by
  rcases engineTurn_cases s with ⟨hp, he⟩ | ⟨hp, hlt, he⟩ | ⟨hp, hx, he⟩ | ⟨-, -, he⟩ <;> rw [he] at h
  · exact engineStep_of_write hp h
  · exact engineStep_of_read hb hp hlt h
  · cases h
    exact .complete hp hx
  · cases h

/-! ### What an input does -/

/-- What an input served does to the block and to memory. -/
inductive InputEffect (s : State) : Input → State → Prop
  | answer (a : HostAccess) (r : Response) : InputEffect s (.access a) (respond r s)
  | operation {a : HostAccess} {off : Offset} {i : Instr} {t : State} :
      windowOffset s.plat a.addr = some off → legalAccess off a.bytes = true →
      decode (.mmio (accessWord off a)) = .ok i → HostEffect s i t → InputEffect s (.access a) t
  | memRead (a : Addr) (r : Response) (k : Nat) :
      InputEffect s (.memRead a) { s with resp := r, draws := k }
  | memWrite (a : Addr) (v : Byte) (m : Memory) (q : List Nat) (k : Nat) :
      (s.mem.wf = true → m.wf = true) →
      InputEffect s (.memWrite a v) { s with mem := m, raced := q, draws := k, resp := .done }
  | reset : InputEffect s .reset (resetBlock s)

theorem inputEffect_outsideRead (a : Addr) (s : State) :
    InputEffect s (.memRead a) (outsideRead a s) := by
  unfold outsideRead
  split
  · exact .memRead a _ _
  · exact .memRead a _ s.draws

theorem inputEffect_outsideWrite (a : Addr) (v : Byte) (s : State) :
    InputEffect s (.memWrite a v) (outsideWrite a v s) := by
  unfold outsideWrite
  split
  · exact .memWrite a v _ _ _ fun h => Memory.wf_freeRange _ _ _ (Memory.wf_set a.isLt h)
  · exact .memWrite a v _ s.raced s.draws (Memory.wf_set a.isLt)

theorem inputEffect_of_serveInput {x : Input} {s t : State}
    (h : (serveInput x s).outcome = .next t) : InputEffect s x t := by
  cases x with
  | access a =>
    rcases serveAccess_cases a s with ⟨r, hs⟩ | ⟨off, i, hw, hl, hd, hs⟩ <;>
      simp only [serveInput, hs, Fetched.outcome] at h
    · cases h
      exact .answer a r
    · exact .operation hw hl hd (hostEffect_of_decode hd h)
  | memRead a =>
    cases h
    exact inputEffect_outsideRead a s
  | memWrite a v =>
    cases h
    exact inputEffect_outsideWrite a v s
  | reset =>
    cases h
    exact .reset

/-! ### What a step does -/

/-- A step waits, is the engine's, or serves an input. -/
theorem step_cases {s t : State} (h : step s = .next t) :
    (s.inputs = [] ∧ s.engine ≠ .busy ∧ t = s) ∨
    (s.engine = .busy ∧ ∃ rest, EngineMoves s rest ∧ EngineStep { s with inputs := rest } t) ∨
    (∃ x rest, Served s x rest ∧ InputEffect { s with inputs := rest } x t) := by
  rw [step_eq_outcome] at h
  rcases fetchNext_cases s with ⟨hi, hb, he⟩ | ⟨hb, rest, hm, he⟩ | ⟨n, x, rest, hi, hb, he⟩ <;>
    rw [he] at h
  · cases h
    exact .inl ⟨hi, hb, rfl⟩
  · exact .inr (.inl ⟨hb, rest, hm, engineStep_of_engineTurn hb h⟩)
  · exact .inr (.inr ⟨x, rest, ⟨n, hi, hb⟩, inputEffect_of_serveInput h⟩)

end Sys2Proof.Machine
end

section
/-! Proofs of the family 10_state.md, part 2: the invariant at reset (O48) and along every step (O49). -/

namespace Sys2Proof.Machine

/-! ### What the invariant does not look at -/

/-- A record that no abort has written: outside ABORTED only its cleared fields are left to show. -/
theorem RecordOk.of_not_aborted {s : State} (ha : s.engine ≠ .aborted)
    (hc : s.cause = .none ∧ s.faultAddr = 0) (hidle : s.engine = .idle → s.pixelsDone = 0)
    (hdone : s.engine = .done → s.pixelsDone = s.lat.len) : RecordOk s where
  noCause _ := hc
  aCause h := absurd h ha
  idleCount := hidle
  doneCount := hdone
  startAbort h := absurd h ha
  readAbort h := absurd h ha
  writeAbort h := absurd h ha

/-- The record and the running conversion are not in the registers a host write changes. -/
theorem RecordOk.writeReg {s : State} (h : RecordOk s) (q : RegName) (d : Word) :
    RecordOk (writeReg q d s) := by
  obtain ⟨h1, h2, h3, h4, h5, h6, h7⟩ := h
  constructor <;> simpa

theorem BusyOk.writeReg {s : State} (h : BusyOk s) (q : RegName) (d : Word) :
    BusyOk (writeReg q d s) := by
  obtain ⟨h1, h2, h3, h4, h5, h6, h7, h8, h9, h10, h11⟩ := h
  constructor <;> simpa

/-- The bits of a stored value outside the mask are 0. -/
theorem extractLsb'_and_eq_zero {d m : Word} {lo n : Nat} (h : m.extractLsb' lo n = 0) :
    (d &&& m).extractLsb' lo n = 0 := by
  rw [BitVec.extractLsb'_and, h, BitVec.ofNat_eq_ofNat, BitVec.and_zero]

/-- Every register write drops the reserved bits (20_memory.md R53). -/
theorem ReservedBitsZero.writeReg {s : State} (h : ReservedBitsZero s) (q : RegName) (d : Word) :
    ReservedBitsZero (writeReg q d s) := by
  obtain ⟨h1, h2, h3, h4, h5, h6, h7, h8⟩ := h
  cases q with
  | srcCfg => exact ⟨extractLsb'_and_eq_zero (by decide), h2, h3, h4, h5, h6, h7, h8⟩
  | srcMaxB => exact ⟨h1, extractLsb'_and_eq_zero (by decide), h3, h4, h5, h6, h7, h8⟩
  | srcShift => exact ⟨h1, h2, extractLsb'_and_eq_zero (by decide), h4, h5, h6, h7, h8⟩
  | dstCfg => exact ⟨h1, h2, h3, extractLsb'_and_eq_zero (by decide), h5, h6, h7, h8⟩
  | dstMaxB => exact ⟨h1, h2, h3, h4, extractLsb'_and_eq_zero (by decide), h6, h7, h8⟩
  | dstShift => exact ⟨h1, h2, h3, h4, h5, extractLsb'_and_eq_zero (by decide), h7, h8⟩
  | bppp => exact ⟨h1, h2, h3, h4, h5, h6, extractLsb'_and_eq_zero (by decide), h8⟩
  | irqEn => exact ⟨h1, h2, h3, h4, h5, h6, h7, extractLsb'_and_eq_zero (by decide)⟩
  | _ => exact ⟨h1, h2, h3, h4, h5, h6, h7, h8⟩

theorem Inv.writeReg {s : State} (h : Inv s) (q : RegName) (d : Word) : Inv (writeReg q d s) where
  reserved := h.reserved.writeReg q d
  record := h.record.writeReg q d
  conversion hb := (h.conversion (by simpa using hb)).writeReg q d
  memory := by simpa using h.memory

/-- The invariant does not look at the platform, the inputs, the answer or the races, and of memory only at
its form. -/
theorem Inv.withOutside {s : State} (h : Inv s) {m : Memory} (hm : m.wf = true) (p : Platform)
    (xs : List TimedInput) (r : Response) (q : List Nat) (k : Nat) :
    Inv { s with mem := m, plat := p, inputs := xs, resp := r, raced := q, draws := k } where
  reserved := h.reserved
  record :=
    let ⟨h1, h2, h3, h4, h5, h6, h7⟩ := h.record
    ⟨h1, h2, h3, h4, h5, h6, h7⟩
  conversion hb :=
    let ⟨h1, h2, h3, h4, h5, h6, h7, h8, h9, h10, h11⟩ := h.conversion hb
    ⟨h1, h2, h3, h4, h5, h6, h7, h8, h9, h10, h11⟩
  memory := hm

theorem Inv.respond {s : State} (h : Inv s) (r : Response) : Inv (respond r s) :=
  h.withOutside h.memory s.plat s.inputs r s.raced s.draws

theorem Inv.withInputs {s : State} (h : Inv s) (xs : List TimedInput) : Inv { s with inputs := xs } :=
  h.withOutside h.memory s.plat xs s.resp s.raced s.draws

/-! ### Reset -/

theorem inv_reset : Inv State.reset where
  reserved := by decide
  record := .of_not_aborted nofun ⟨rfl, rfl⟩ (fun _ => rfl) nofun
  conversion := nofun
  memory := rfl

/-- A reset in any state leaves the block as after reset, and a memory in canonical form. -/
theorem Inv.resetBlock {s : State} (h : Inv s) : Inv (resetBlock s) :=
  inv_reset.withOutside (Memory.wf_freeRange _ _ _ h.memory) _ _ _ _ _

/-! ### The commands -/

/-- An accepted START begins with both cursors at the start of their buffers (42_sequencer.md R172). -/
theorem busyOk_beginConversion {s : State} (h : StartAccepted s) :
    BusyOk (beginConversion { s with pixelsDone := 0 }) where
  formats := h.1
  buffers := h.2
  srcWidths := rfl
  dstWidths := rfl
  shifts := rfl
  bound := Nat.zero_le _
  mirror := rfl
  source := by simp [latchedOf]
  destination := by simp [latchedOf]
  reading _ := rfl
  writing := nofun

theorem Inv.commandStart {s : State} (h : Inv s) : Inv (commandStart s) := by
  rcases commandStart_cases s with ⟨-, e⟩ | ⟨-, ha, e⟩ | ⟨-, c, a, hc, e⟩ <;> rw [e]
  · exact h
  · exact ⟨h.reserved, .of_not_aborted nofun ⟨rfl, rfl⟩ nofun nofun,
      fun _ => busyOk_beginConversion ha, h.memory⟩
  · obtain ⟨hnone, hread, hwrite⟩ := startCheck_cause hc
    refine ⟨h.reserved, ?_, nofun, h.memory⟩
    exact ⟨fun hn => absurd rfl hn, fun _ => hnone, nofun, nofun, fun _ _ _ => rfl,
      fun _ hr => absurd hr hread, fun _ hw => absurd hw hwrite⟩

theorem Inv.commandClear {s : State} (h : Inv s) : Inv (commandClear s) := by
  rcases commandClear_cases s with ⟨-, e⟩ | ⟨-, e⟩ <;> rw [e]
  · exact h
  · exact ⟨h.reserved, .of_not_aborted nofun ⟨rfl, rfl⟩ (fun _ => rfl) nofun, nofun, h.memory⟩

/-! ### The engine's steps -/

theorem length_packBytes {b : Byte} (h : PackerWidth b) (e : Bool) (c : Word) :
    (packBytes b e c).length = b.toNat := by
  rcases h with rfl | rfl | rfl <;> cases e <;> rfl

/-- While BUSY the record shows no abort, so a step that stays BUSY and writes no cause keeps it. -/
theorem RecordOk.of_busy {s t : State} (h : RecordOk s) (hs : s.engine = .busy) (ht : t.engine = .busy)
    (hc : t.cause = s.cause) (hf : t.faultAddr = s.faultAddr) : RecordOk t := by
  refine .of_not_aborted (by simp [ht]) ?_ (by simp [ht]) (by simp [ht])
  rw [hc, hf]
  exact h.noCause (by simp [hs])

/-- A running conversion has a packer: its width was accepted (42_sequencer.md R171). -/
theorem BusyOk.packer {s : State} (h : BusyOk s) : PackerWidth s.lat.bppp := by
  obtain ⟨-, -, -, -, -, -, hw⟩ := h.formats
  exact hw

/-- A read step holds the packed bytes of the pixel and leaves the cursors (42_sequencer.md R174). -/
theorem BusyOk.hold {s : State} (h : BusyOk s) (hp : s.phase = .read)
    (hlt : s.pix.toNat < s.lat.len.toNat) (hw : PackerWidth s.lat.bppp) (px : Word) :
    BusyOk { s with out := convertPixel s.lat px, byteIdx := 0, phase := .write } :=
  { h with
    destination := h.reading hp ▸ h.destination
    reading := nofun
    writing := fun _ => ⟨hlt, by rcases hw with e | e | e <;> simp [e], length_packBytes hw _ _⟩ }

/-- A byte index below the width of a packer counts up without a wrap. -/
theorem toNat_byteIdx_succ {b : Byte} (hw : PackerWidth b) {j : BitVec 2} (hj : j.toNat < b.toNat) :
    (j + 1).toNat = j.toNat + 1 := by
  have hb : b.toNat ≤ 3 := by rcases hw with rfl | rfl | rfl <;> decide
  bv_omega

/-- The destination cursor moves with the byte index (10_state.md R41). -/
theorem BusyOk.dp_succ {s : State} (h : BusyOk s) (hp : s.phase = .write) :
    s.dp + 1 =
      s.lat.dstAddr + s.lat.bppp.setWidth 32 * s.pix + (s.byteIdx + 1).setWidth 32 := by
  have hj := toNat_byteIdx_succ h.packer (h.writing hp).2.1
  have hw : (s.byteIdx + 1).setWidth 32 = s.byteIdx.setWidth 32 + 1 := by bv_omega
  rw [h.destination, hw, BitVec.add_assoc]

/-- A byte that is not the pixel's last leaves the next byte to write (42_sequencer.md R175). -/
theorem BusyOk.nextByte {s : State} (h : BusyOk s) (hp : s.phase = .write)
    (hj : (s.byteIdx + 1).toNat ≠ s.lat.bppp.toNat) :
    BusyOk { s with dp := s.dp + 1, byteIdx := s.byteIdx + 1 } := by
  obtain ⟨hlt, hjb, hout⟩ := h.writing hp
  have hsucc := toNat_byteIdx_succ h.packer hjb
  exact { h with
    destination := h.dp_succ hp
    reading := fun hr => absurd (hp.symm.trans hr) nofun
    writing := fun _ => ⟨hlt, by simp only; omega, hout⟩ }

/-- The pixel's last byte leaves the next pixel to read (42_sequencer.md R176). -/
theorem BusyOk.nextPixel {s : State} (h : BusyOk s) (hp : s.phase = .write)
    (hj : (s.byteIdx + 1).toNat = s.lat.bppp.toNat) :
    BusyOk (advance { s with dp := s.dp + 1, byteIdx := s.byteIdx + 1 }) := by
  have hlt := (h.writing hp).1
  have hlen := s.lat.len.isLt
  have hpix : (s.pix + 1).toNat = s.pix.toNat + 1 := by bv_omega
  have hw : (s.byteIdx + 1).setWidth 32 = s.lat.bppp.setWidth 32 := by
    apply BitVec.eq_of_toNat_eq
    simp only [BitVec.toNat_setWidth, hj]
  refine { h with
    bound := by simp only [advance_pix, advance_lat, hpix]; omega
    mirror := rfl
    source := ?_
    destination := ?_
    reading := fun _ => rfl
    writing := nofun }
  · simp only [advance_sp, advance_lat, advance_pix, h.source]
    ring
  · have h0 : (0 : BitVec 2).setWidth 32 = (0 : Word) := rfl
    calc s.dp + 1
        = s.lat.dstAddr + s.lat.bppp.setWidth 32 * s.pix + (s.byteIdx + 1).setWidth 32 := h.dp_succ hp
      _ = s.lat.dstAddr + s.lat.bppp.setWidth 32 * (s.pix + 1) + (0 : BitVec 2).setWidth 32 := by
        rw [hw, h0]
        ring

theorem BusyOk.storeByte {s : State} (h : BusyOk s) (a : Addr) (v : Byte) (k : Nat) :
    BusyOk (storeByte a v { s with draws := k }) :=
  { h with }

theorem BusyOk.afterWrite {s : State} (h : BusyOk s) (hp : s.phase = .write) :
    BusyOk (afterWrite s) := by
  rcases afterWrite_cases s with ⟨hj, e⟩ | ⟨hj, e⟩ <;> rw [e]
  · exact h.nextByte hp hj
  · exact h.nextPixel hp hj

theorem afterWrite_frame (s : State) :
    ∃ d j p x n a,
      afterWrite s = { s with dp := d, byteIdx := j, phase := p, pix := x, pixelsDone := n, sp := a } := by
  rcases afterWrite_cases s with ⟨-, e⟩ | ⟨-, e⟩ <;> exact ⟨_, _, _, _, _, _, e⟩

/-- The engine's write keeps the invariant. -/
theorem Inv.store {s : State} (h : Inv s) (hb : s.engine = .busy) (hp : s.phase = .write) (v : Byte)
    (k : Nat) : Inv (afterWrite (storeByte s.dp v { s with draws := k })) := by
  have hbusy := ((h.conversion hb).storeByte s.dp v k).afterWrite hp
  obtain ⟨d, j, p, x, n, a, e⟩ := afterWrite_frame (storeByte s.dp v { s with draws := k })
  rw [e] at hbusy ⊢
  exact ⟨h.reserved, h.record.of_busy hb hb rfl rfl, fun _ => hbusy,
    Memory.wf_set s.dp.isLt h.memory⟩

theorem Inv.engineStep {s t : State} (h : Inv s) (hb : s.engine = .busy) (ht : EngineStep s t) :
    Inv t := by
  have hB := h.conversion hb
  cases ht with
  | readError hp hlt hok =>
    refine ⟨h.reserved, ?_, nofun, h.memory⟩
    exact ⟨fun hn => absurd rfl hn, nofun, nofun, nofun, fun _ hn => absurd rfl hn,
      fun _ _ => hB.mirror ▸ hB.source, nofun⟩
  | hold hp hlt hw =>
    exact ⟨h.reserved, h.record.of_busy hb hb rfl rfl, fun _ => hB.hold hp hlt hw _, h.memory⟩
  | noPacker hp hw => exact absurd hB.packer hw
  | complete hp hx =>
    exact ⟨h.reserved, .of_not_aborted nofun (h.record.noCause (by simp [hb])) nofun
      fun _ => hB.mirror.trans hx, nofun, h.memory⟩
  | writeError hp hok =>
    refine ⟨h.reserved, ?_, nofun, h.memory⟩
    exact ⟨fun hn => absurd rfl hn, nofun, nofun, nofun, fun _ _ hn => absurd rfl hn, nofun,
      fun _ _ => ⟨(hB.writing hp).2.1, hB.mirror ▸ hB.destination⟩⟩
  | store v k hp hok => exact h.store hb hp v k

/-! ### The inputs -/

theorem Inv.hostEffect {s t : State} {i : Instr} (h : Inv s) (ht : HostEffect s i t) : Inv t := by
  cases ht with
  | answer _ r => exact h.respond r
  | write _ q d => exact (h.writeReg q d).respond .done
  | start r => exact h.commandStart.respond .done
  | clear r => exact h.commandClear.respond .done
  | clearStart r => exact h.commandClear.commandStart.respond .done

theorem Inv.inputEffect {s t : State} {x : Input} (h : Inv s) (ht : InputEffect s x t) : Inv t := by
  cases ht with
  | answer a r => exact h.respond r
  | operation _ _ _ hi => exact h.hostEffect hi
  | memRead a r k => exact h.withOutside h.memory _ _ r _ k
  | memWrite a v m q k hm => exact h.withOutside (hm h.memory) _ _ .done q k
  | reset => exact h.resetBlock

theorem Inv.step {s t : State} (h : Inv s) (ht : step s = .next t) : Inv t := by
  rcases step_cases ht with ⟨-, -, rfl⟩ | ⟨hb, rest, -, he⟩ | ⟨x, rest, -, hx⟩
  · exact h
  · exact (h.withInputs rest).engineStep hb he
  · exact (h.withInputs rest).inputEffect hx

end Sys2Proof.Machine

open Sys2Proof.Machine

/-- Settles O48: no field of the invariant is left to a START, since the block is in IDLE. -/
theorem resetSatisfiesTheInvariant : Obligations.ResetSatisfiesTheInvariant := inv_reset

/-- Settles O49, by the three kinds of step: it waits, it is the engine's, or it serves an input. -/
theorem stepKeepsTheInvariant : Obligations.StepKeepsTheInvariant :=
  fun _ _ h ht => h.step ht

end

section
/-! Proofs of the family 10_state.md, part 3: STATUS as read (O11) and the transitions of STATE (O54). -/

open Sys2Proof.Spec

namespace Sys2Proof.Machine

/-! ### STATUS -/

/-- The word of a read row of the table is the read of the register at its offset (30_encoding.md R89). -/
theorem decode_of_readRow {t : TransWord} {r : RegName}
    (h : t &&& 0x1fff00000000#45 = transWord false r.offset 0) : decode (.mmio t) = .ok (readInstr r) := by
  obtain ⟨hw, hoff⟩ := fields_of_rowMask h
  rw [← transWord_eta t, hw, hoff]
  exact decodeMmio_read r _

/-- The bits of STATUS (40_host_ops.md R114). -/
theorem getLsbD_statusWord (s : State) (k : Nat) :
    (statusWord s).getLsbD k =
      if k < 2 then s.engine.code.getLsbD k
      else if k < 3 then irqLevel s
      else if k < 8 then false
      else s.cause.code.getLsbD (k - 8) := by
  change (0#20 ++ s.cause.code ++ 0#5 ++ BitVec.ofBool (irqLevel s) ++ s.engine.code :
    BitVec (20 + 4 + 5 + 1 + 2)).getLsbD k = _
  simp only [BitVec.getLsbD_append, BitVec.getLsbD_zero, BitVec.getLsbD_ofBool]
  by_cases h2 : k < 2
  · simp [h2]
  by_cases h3 : k < 3
  · obtain rfl : k = 2 := by omega
    simp
  by_cases h8 : k < 8
  · have h5 : k - 2 - 1 < 5 := by omega
    have h1 : ¬ k - 2 < 1 := by omega
    simp [h2, h3, h8, h5, h1]
  · have h1 : ¬ k - 2 < 1 := by omega
    have h5 : ¬ k - 2 - 1 < 5 := by omega
    have hk : k - 2 - 1 - 5 = k - 8 := by omega
    simp only [h2, h3, h8, h1, h5, hk, if_false]
    by_cases h4 : k - 8 < 4
    · simp [h4]
    · simp [h4, BitVec.getLsbD_of_ge _ _ (Nat.not_lt.mp h4)]

theorem statusWord_engine (s : State) : (statusWord s).extractLsb' 0 2 = s.engine.code := by
  apply BitVec.eq_of_getLsbD_eq
  intro k hk
  simp [getLsbD_statusWord, hk]

theorem statusWord_cause (s : State) : (statusWord s).extractLsb' 8 4 = s.cause.code := by
  apply BitVec.eq_of_getLsbD_eq
  intro k hk
  have h2 : ¬ 8 + k < 2 := by omega
  have h3 : ¬ 8 + k < 3 := by omega
  simp [getLsbD_statusWord, hk, h2, h3]

theorem statusWord_irq (s : State) : (statusWord s).getLsbD 2 = irqLevel s :=
  getLsbD_statusWord s 2

/-- The interrupt level of 10_state.md R47. -/
theorem irqLevel_iff (s : State) :
    irqLevel s = true ↔
      (s.engine = .done ∧ s.irqEn.getLsbD 0 = true) ∨
      (s.engine = .aborted ∧ s.irqEn.getLsbD 1 = true) := by
  simp [irqLevel, doneIE, abortIE]

/-- Bits 3 to 7 and 12 up of STATUS are 0. -/
theorem statusWord_reserved (s : State) : statusWord s &&& 0xFFFFF0F8 = 0 := by
  apply BitVec.eq_of_getLsbD_eq
  intro k hk
  rw [BitVec.getLsbD_and, getLsbD_statusWord]
  by_cases h3 : k < 3
  · have hm : ∀ j < 3, (0xFFFFF0F8 : Word).getLsbD j = false := by decide
    rw [hm k h3, Bool.and_false]
    exact BitVec.getLsbD_zero.symm
  by_cases h8 : k < 8
  · have h2 : ¬ k < 2 := by omega
    simp [h2, h3, h8]
  by_cases h12 : k < 12
  · have hm : ∀ j < 12, 8 ≤ j → (0xFFFFF0F8 : Word).getLsbD j = false := by decide
    rw [hm k h12 (Nat.not_lt.mp h8), Bool.and_false]
    exact BitVec.getLsbD_zero.symm
  · have h2 : ¬ k < 2 := by omega
    have h4 : 4 ≤ k - 8 := by omega
    simp [h2, h3, h8, BitVec.getLsbD_of_ge _ _ h4]

/-! ### The transitions of STATE -/

/-- START moves STATE only from IDLE and DONE, to BUSY or ABORTED (40_host_ops.md R137). -/
theorem engine_commandStart (s : State) :
    ((s.engine = .busy ∨ s.engine = .aborted) ∧ (commandStart s).engine = s.engine) ∨
    ((s.engine = .idle ∨ s.engine = .done) ∧
      ((commandStart s).engine = .busy ∨ (commandStart s).engine = .aborted)) := by
  rcases commandStart_cases s with ⟨hs, e⟩ | ⟨hs, -, e⟩ | ⟨hs, c, a, -, e⟩ <;> rw [e]
  · exact .inl ⟨hs, rfl⟩
  · exact .inr ⟨hs, .inl rfl⟩
  · exact .inr ⟨hs, .inr rfl⟩

/-- CLEAR moves STATE only from DONE and ABORTED, to IDLE (40_host_ops.md R138). -/
theorem engine_commandClear (s : State) :
    ((s.engine = .idle ∨ s.engine = .busy) ∧ (commandClear s).engine = s.engine) ∨
    ((s.engine = .done ∨ s.engine = .aborted) ∧ (commandClear s).engine = .idle) := by
  rcases commandClear_cases s with ⟨hs, e⟩ | ⟨hs, e⟩ <;> rw [e]
  · exact .inl ⟨hs, rfl⟩
  · exact .inr ⟨hs, rfl⟩

/-- CLEAR and then START moves STATE to BUSY or ABORTED, but not while BUSY (40_host_ops.md R139). -/
theorem engine_commandClearStart (s : State) :
    (s.engine = .busy ∧ (commandStart (commandClear s)).engine = s.engine) ∨
    (s.engine ≠ .busy ∧ ((commandStart (commandClear s)).engine = .busy ∨
      (commandStart (commandClear s)).engine = .aborted)) := by
  by_cases hb : s.engine = .busy
  · have hc : (commandClear s).engine = .busy := by
      rcases engine_commandClear s with ⟨-, hc⟩ | ⟨hs, -⟩
      · exact hc.trans hb
      · simp [hb] at hs
    rcases engine_commandStart (commandClear s) with ⟨-, hst⟩ | ⟨hs, -⟩
    · exact .inl ⟨hb, hst.trans (hc.trans hb.symm)⟩
    · simp [hc] at hs
  · have hc : (commandClear s).engine = .idle := by
      rcases engine_commandClear s with ⟨hs, hc⟩ | ⟨-, hc⟩
      · exact hc.trans (hs.resolve_right hb)
      · exact hc
    rcases engine_commandStart (commandClear s) with ⟨hs, -⟩ | ⟨-, hst⟩
    · simp [hc] at hs
    · exact .inr ⟨hb, hst⟩

/-- The engine leaves BUSY by completing, or by an abort; where its width has a packer the abort is that of a
bus error, which it records (42_sequencer.md R177 to R179). -/
theorem EngineStep.transition {s t : State} (hb : s.engine = .busy) (h : EngineStep s t) :
    t.engine = .busy ∨
    (t.engine = .done ∧ s.phase = .read ∧ s.pix = s.lat.len) ∨
    (t.engine = .aborted ∧ (PackerWidth s.lat.bppp →
      (s.phase = .read ∧ s.pix.toNat < s.lat.len.toNat ∧ wordOk s.plat s.sp = false ∧
        t.cause = .busRead ∧ t.faultAddr = s.sp) ∨
      (s.phase = .write ∧ memOk s.plat s.dp = false ∧ t.cause = .busWrite ∧ t.faultAddr = s.dp))) := by
  cases h with
  | readError hp hlt hok => exact .inr (.inr ⟨rfl, fun _ => .inl ⟨hp, hlt, hok, rfl, rfl⟩⟩)
  | hold => exact .inl hb
  | noPacker hp hw => exact .inr (.inr ⟨rfl, fun h => absurd h hw⟩)
  | complete hp hx => exact .inr (.inl ⟨rfl, hp, hx⟩)
  | writeError hp hok => exact .inr (.inr ⟨rfl, fun _ => .inr ⟨hp, hok, rfl, rfl⟩⟩)
  | store v k hp hok =>
    obtain ⟨_, _, _, _, _, _, e⟩ := afterWrite_frame (storeByte s.dp v { s with draws := k })
    exact .inl (e ▸ hb)

/-- Of the operations of the host only the commands move STATE, and none while BUSY. -/
theorem HostEffect.transition {s t : State} {i : Instr} (h : HostEffect s i t)
    (hne : t.engine ≠ s.engine) :
    s.engine ≠ .busy ∧ ∃ r,
      (i = .ctrlStart r ∧ s.engine ≠ .aborted ∧ (t.engine = .busy ∨ t.engine = .aborted)) ∨
      (i = .ctrlClear r ∧ s.engine ≠ .idle ∧ t.engine = .idle) ∨
      (i = .ctrlClearStart r ∧ (t.engine = .busy ∨ t.engine = .aborted)) := by
  cases h with
  | answer => exact absurd rfl hne
  | write _ q d => exact absurd (writeReg_engine q d s) hne
  | start r =>
    rcases engine_commandStart s with ⟨-, e⟩ | ⟨hs, e⟩
    · exact absurd e hne
    · have hs' : s.engine ≠ .busy ∧ s.engine ≠ .aborted := by rcases hs with hs | hs <;> simp [hs]
      exact ⟨hs'.1, r, .inl ⟨rfl, hs'.2, e⟩⟩
  | clear r =>
    rcases engine_commandClear s with ⟨-, e⟩ | ⟨hs, e⟩
    · exact absurd e hne
    · have hs' : s.engine ≠ .busy ∧ s.engine ≠ .idle := by rcases hs with hs | hs <;> simp [hs]
      exact ⟨hs'.1, r, .inr (.inl ⟨rfl, hs'.2, e⟩)⟩
  | clearStart r =>
    rcases engine_commandClearStart s with ⟨-, e⟩ | ⟨hs, e⟩
    · exact absurd e hne
    · exact ⟨hs, r, .inr (.inr ⟨rfl, e⟩)⟩

/-- An input that moves STATE is a reset, to IDLE, or a legal access that runs an operation. -/
theorem InputEffect.transition {s t : State} {x : Input} (h : InputEffect s x t)
    (hne : t.engine ≠ s.engine) :
    (x = .reset ∧ t.engine = .idle) ∨
    ∃ a off i, x = .access a ∧ windowOffset s.plat a.addr = some off ∧
      legalAccess off a.bytes = true ∧ decode (.mmio (accessWord off a)) = .ok i ∧ HostEffect s i t := by
  cases h with
  | answer => exact absurd rfl hne
  | operation hw hl hd hi => exact .inr ⟨_, _, _, rfl, hw, hl, hd, hi⟩
  | memRead => exact absurd rfl hne
  | memWrite => exact absurd rfl hne
  | reset => exact .inl ⟨rfl, rfl⟩

end Sys2Proof.Machine

open Sys2Proof.Machine

/-- Settles O11: the row, the bits of the word RD_STATUS answers, and the two tables of codes. -/
theorem statusReadShowsStateIrqAndCause : Obligations.StatusReadShowsStateIrqAndCause := by
  refine ⟨fun t h => decode_of_readRow (r := .status) h, fun s => ?_, rfl, rfl⟩
  refine ⟨statusWord s, rfl, statusWord_engine s, statusWord_cause s, ?_, statusWord_reserved s⟩
  rw [statusWord_irq]
  exact irqLevel_iff s

/-- Settles O54: STATE stands where a step waits; the engine leaves BUSY by `EngineStep.transition`, and an
input moves STATE by `InputEffect.transition`. -/
theorem engineStateTransitions : Obligations.EngineStateTransitions := by
  intro s t ht hne
  rcases step_cases ht with ⟨-, -, rfl⟩ | ⟨hb, rest, hm, he⟩ | ⟨x, rest, hx, he⟩
  · exact absurd rfl hne
  · rcases EngineStep.transition (s := { s with inputs := rest }) hb he with hT | ⟨hT, hp, hl⟩ | ⟨hT, hab⟩
    · exact absurd (hT.trans hb.symm) hne
    · exact ⟨fun _ => ⟨hb, ⟨rest, hm⟩, hp, hl⟩, by simp [hT], by simp [hT], fun h => absurd hb h⟩
    · exact ⟨by simp [hT], fun _ _ hI => ⟨⟨rest, hm⟩, hab (hI.conversion hb).packer⟩, by simp [hT],
        fun h => absurd hb h⟩
  · rcases he.transition hne with ⟨rfl, hT⟩ | ⟨a, off, i, rfl, hw, hl, hd, hi⟩
    · exact ⟨by simp [hT], by simp [hT], fun _ _ => ⟨rest, hx⟩, fun _ => .inl ⟨rest, hx⟩⟩
    · obtain ⟨hnb, r, hc⟩ := hi.transition hne
      have hserves : ServesOperation s i := ⟨a, rest, off, hx, hw, hl, hd⟩
      have hnd : t.engine ≠ .done := by
        rcases hc with ⟨-, -, hT | hT⟩ | ⟨-, -, hT⟩ | ⟨-, hT | hT⟩ <;> simp [hT]
      refine ⟨fun h => absurd h hnd, fun h => absurd h hnb, fun h => absurd h hnb,
        fun _ => .inr ⟨r, ?_⟩⟩
      rcases hc with ⟨rfl, hc⟩ | ⟨rfl, hc⟩ | ⟨rfl, hc⟩
      · exact .inl ⟨hserves, hc⟩
      · exact .inr (.inl ⟨hserves, hc⟩)
      · exact .inr (.inr ⟨hserves, hc⟩)

end

section
/-! Proofs of the family 10_state.md, part 4: the running conversion does not see a register write (O42). -/

open Sys2Proof.Spec

namespace Sys2Proof.Machine

/-- The state a completed register write leaves. -/
abbrev registerWritten (q : RegName) (d : Word) (s : State) : State := respond .done (writeReg q d s)

theorem exec_writeInstr_writable {q : RegName} (hq : writable q = true) (d : Word) (s : State) :
    exec (writeInstr d q) s = .next (registerWritten q d s) :=
  exec_writeInstr (fun e => absurd (e ▸ hq) nofun) d s

/-- A change of the next state, where there is one. -/
def mapNext (f : State → State) : Host.Outcome State Fault Refusal → Host.Outcome State Fault Refusal
  | .next s => .next (f s)
  | .fault r => .fault r
  | .refused r => .refused r

section
variable (q : RegName) (d : Word) (s : State)

/-! ### The write step, by its three outcomes (42_sequencer.md R175, R179) -/

/-- The byte that completes is stored at `dp`: the one held, or a free one for a raced pixel (entry 8). -/
def storeHeld (v : Byte) (s : State) : State :=
  if pixelRaced s then storeByte s.dp (Config.freeByte s.draws) { s with draws := s.draws + 1 }
  else storeByte s.dp v s

variable {s}

theorem writeStep_of_none (h : s.out[s.byteIdx.toNat]? = none) : writeStep s = .fault .noHeldByte := by
  simp [writeStep, h]

theorem writeStep_of_not_memOk {v : Byte} (h : s.out[s.byteIdx.toNat]? = some v)
    (hm : memOk s.plat s.dp = false) : writeStep s = .next (raiseAbort .busWrite s.dp s) := by
  cases hr : pixelRaced s <;> simp [writeStep, memWriteByte, h, hm, hr]

theorem writeStep_of_memOk {v : Byte} (h : s.out[s.byteIdx.toNat]? = some v)
    (hm : memOk s.plat s.dp = true) : writeStep s = .next (afterWrite (storeHeld v s)) := by
  cases hr : pixelRaced s <;> simp [writeStep, storeHeld, memWriteByte, h, hm, hr]

variable (s)

/-! ### The engine's updates commute with the write -/

theorem raiseAbort_registerWritten (c : Cause) (a : Addr) :
    raiseAbort c a (registerWritten q d s) = registerWritten q d (raiseAbort c a s) := by
  cases q <;> rfl

theorem completeStep_registerWritten :
    completeStep (registerWritten q d s) = registerWritten q d (completeStep s) := by
  cases q <;> rfl

theorem afterWrite_registerWritten :
    afterWrite (registerWritten q d s) = registerWritten q d (afterWrite s) := by
  rcases afterWrite_cases s with ⟨hj, e⟩ | ⟨hj, e⟩ <;>
    rcases afterWrite_cases (registerWritten q d s) with ⟨hj', e'⟩ | ⟨hj', e'⟩
  · rw [e, e']
    cases q <;> rfl
  · exact absurd (by simpa using hj') hj
  · exact absurd hj (by simpa using hj')
  · rw [e, e']
    cases q <;> rfl

theorem memReadWord_registerWritten (a : Addr) :
    memReadWord (registerWritten q d s) a = memReadWord s a := by
  simp [memReadWord, wordAt, byteAt]

theorem readStep_registerWritten (pack : Bool → Word → List Byte) :
    readStep pack (registerWritten q d s) = registerWritten q d (readStep pack s) := by
  simp only [readStep, readEnabled, memReadWord_registerWritten, respond_engine, respond_phase, respond_pix,
    respond_lat, respond_sp, writeReg_engine, writeReg_phase, writeReg_pix, writeReg_lat, writeReg_sp]
  split
  · split
    · exact raiseAbort_registerWritten q d s _ _
    · cases q <;> rfl
  · rfl

theorem storeHeld_registerWritten (v : Byte) :
    storeHeld v (registerWritten q d s) = registerWritten q d (storeHeld v s) := by
  have hp : pixelRaced (registerWritten q d s) = pixelRaced s := by simp [pixelRaced]
  unfold storeHeld
  rw [hp]
  cases pixelRaced s <;> cases q <;> rfl

theorem writeStep_registerWritten :
    writeStep (registerWritten q d s) = mapNext (registerWritten q d) (writeStep s) := by
  cases ho : s.out[s.byteIdx.toNat]? with
  | none =>
    rw [writeStep_of_none ho, writeStep_of_none (by simpa using ho)]
    rfl
  | some v =>
    cases hm : memOk s.plat s.dp
    · rw [writeStep_of_not_memOk ho hm, writeStep_of_not_memOk (v := v) (by simpa using ho) (by simpa using hm),
        raiseAbort_registerWritten, respond_dp, writeReg_dp]
      rfl
    · rw [writeStep_of_memOk ho hm, writeStep_of_memOk (v := v) (by simpa using ho) (by simpa using hm),
        storeHeld_registerWritten, afterWrite_registerWritten]
      rfl

theorem exec_decodePack_registerWritten (b : Byte) :
    exec (decodePack b) (registerWritten q d s) =
      mapNext (registerWritten q d) (exec (decodePack b) s) := by
  by_cases hb : PackerWidth b
  · simp only [exec_decodePack_of_packer hb, readStep_registerWritten, mapNext]
  · simp only [exec_decodePack_of_not_packer hb, raiseAbort_registerWritten, mapNext]

theorem engineTurn_registerWritten :
    (engineTurn (registerWritten q d s)).outcome =
      mapNext (registerWritten q d) (engineTurn s).outcome := by
  simp only [engineTurn, respond_phase, respond_pix, respond_lat, writeReg_phase, writeReg_pix, writeReg_lat]
  cases s.phase with
  | write => exact writeStep_registerWritten q d s
  | read =>
    by_cases hlt : s.pix.toNat < s.lat.len.toNat
    · simp only [hlt, if_true]
      exact exec_decodePack_registerWritten q d s _
    by_cases hx : s.pix = s.lat.len
    · simp only [hx, lt_irrefl, if_false, if_true, Fetched.outcome, completeStep_registerWritten, mapNext]
    · simp only [hlt, hx, if_false, Fetched.outcome, mapNext]

/-! ### A run with nothing pending -/

variable {s}

theorem step_of_inputs_nil (hi : s.inputs = []) :
    step s = if s.engine = .busy then (engineTurn s).outcome else .next s := by
  rw [step_eq_outcome, fetchNext, hi]
  by_cases hb : s.engine = .busy <;> simp [hb, Fetched.outcome]

theorem step_registerWritten (hi : s.inputs = []) :
    step (registerWritten q d s) = mapNext (registerWritten q d) (step s) := by
  rw [step_of_inputs_nil hi, step_of_inputs_nil (by simpa using hi), engineTurn_registerWritten,
    respond_engine, writeReg_engine]
  split <;> rfl

end

theorem EngineStep.inputs_eq {s t : State} (h : EngineStep s t) : t.inputs = s.inputs := by
  cases h with
  | store v k =>
    obtain ⟨_, _, _, _, _, _, e⟩ := afterWrite_frame (storeByte s.dp v { s with draws := k })
    rw [e]
    rfl
  | _ => rfl

/-- A step with nothing pending leaves nothing pending. -/
theorem step_inputs_nil {s t : State} (hi : s.inputs = []) (h : step s = .next t) : t.inputs = [] := by
  rcases step_cases h with ⟨-, -, rfl⟩ | ⟨-, rest, hm, he⟩ | ⟨x, rest, ⟨n, hx, -⟩, -⟩
  · exact hi
  · rcases hm with ⟨-, rfl⟩ | ⟨n, x, tail, hx, -⟩
    · exact he.inputs_eq
    · simp [hi] at hx
  · simp [hi] at hx

/-- A run with nothing pending commutes with a register write before it (20_memory.md R72). -/
theorem run_registerWritten (q : RegName) (d : Word) {n : Nat} {s t : State} (hi : s.inputs = [])
    (h : Sys2Proof.core.run n s = .next t) :
    Sys2Proof.core.run n (registerWritten q d s) = .next (registerWritten q d t) := by
  induction n generalizing s with
  | zero =>
    cases h
    rfl
  | succ n ih =>
    rw [run_succ] at h
    cases hs : step s with
    | next u =>
      rw [hs] at h
      have hw : step (registerWritten q d s) = .next (registerWritten q d u) := by
        rw [step_registerWritten q d hi, hs]
        rfl
      rw [run_succ_next hw]
      exact ih (step_inputs_nil hi hs) h
    | fault r =>
      rw [hs] at h
      cases h
    | refused r =>
      rw [hs] at h
      cases h

end Sys2Proof.Machine

open Sys2Proof.Machine

/-- Settles O42: the write commutes with each step of the engine, so with any number of them. -/
theorem runningConversionDoesNotSeeRegisterWrites :
    Obligations.RunningConversionDoesNotSeeRegisterWrites := by
  intro n q d s t u hq hi hu ht
  rw [exec_writeInstr_writable hq] at hu
  cases hu
  exact ⟨_, exec_writeInstr_writable hq d t, run_registerWritten q d hi ht⟩

end

section
/-! Proofs of the family 20_memory.md, part 1: source words (O30) and MEM_OK (O55). -/

namespace Sys2Proof.Machine

/-- A byte put below a bit vector. -/
theorem toNat_append_byte {n : Nat} (x : BitVec n) (b : Byte) :
    (x ++ b).toNat = 2 ^ 8 * x.toNat + b.toNat := by
  rw [BitVec.toNat_append, ← Nat.shiftLeft_add_eq_or_of_lt b.isLt, Nat.shiftLeft_eq, Nat.mul_comm]

/-- Four bytes side by side, the last one least significant. -/
theorem toNat_append_bytes (b3 b2 b1 b0 : Byte) :
    (b3 ++ b2 ++ b1 ++ b0 : BitVec (8 + 8 + 8 + 8)).toNat =
      b0.toNat + 2 ^ 8 * b1.toNat + 2 ^ 16 * b2.toNat + 2 ^ 24 * b3.toNat := by
  simp only [toNat_append_byte]
  omega

/-- A source word on a little-endian platform (20_memory.md R56). -/
theorem toNat_assemble_le (b0 b1 b2 b3 : Byte) :
    (assemble .le b0 b1 b2 b3).toNat =
      b0.toNat + 2 ^ 8 * b1.toNat + 2 ^ 16 * b2.toNat + 2 ^ 24 * b3.toNat :=
  toNat_append_bytes b3 b2 b1 b0

/-- A source word on a big-endian platform (20_memory.md R56). -/
theorem toNat_assemble_be (b0 b1 b2 b3 : Byte) :
    (assemble .be b0 b1 b2 b3).toNat =
      b3.toNat + 2 ^ 8 * b2.toNat + 2 ^ 16 * b1.toNat + 2 ^ 24 * b0.toNat :=
  toNat_append_bytes b0 b1 b2 b3

/-- MEM_OK fails exactly on the listed ranges (20_memory.md R54, R55). -/
theorem memOk_eq_false_iff (p : Platform) (a : Addr) :
    memOk p a = false ↔ ∃ r ∈ p.noMem, r.base ≤ a.toNat ∧ a.toNat < r.base + r.size := by
  simp [memOk]

/-- A word is readable when its four bytes are (20_memory.md R56). -/
theorem wordOk_iff (p : Platform) (a : Addr) :
    wordOk p a = true ↔ ∀ k < 4, memOk p (a + BitVec.ofNat 32 k) = true := by
  constructor
  · intro h k hk
    simp only [wordOk, Bool.and_eq_true, and_assoc] at h
    obtain ⟨h0, h1, h2, h3⟩ := h
    match k, hk with
    | 0, _ => rwa [BitVec.add_zero]
    | 1, _ => exact h1
    | 2, _ => exact h2
    | 3, _ => exact h3
  · intro h
    have h0 := h 0 (by decide)
    rw [BitVec.add_zero] at h0
    simp only [wordOk, Bool.and_eq_true]
    exact ⟨⟨⟨h0, h 1 (by decide)⟩, h 2 (by decide)⟩, h 3 (by decide)⟩

/-- One byte without memory makes the whole word unreadable. -/
theorem wordOk_eq_false {p : Platform} {a : Addr} {k : Nat} (hk : k < 4)
    (h : memOk p (a + BitVec.ofNat 32 k) = false) : wordOk p a = false := by
  rw [Bool.eq_false_iff, ne_eq, wordOk_iff]
  intro hall
  rw [hall k hk] at h
  cases h

end Sys2Proof.Machine

open Sys2Proof.Machine

/-- Settles O30, by the two native orders. -/
theorem sourceWordIsAssembledInNativeOrder : Obligations.SourceWordIsAssembledInNativeOrder := by
  intro s a byte
  have h0 : byteAt s (a + BitVec.ofNat 32 0) = byteAt s a := by
    rw [BitVec.add_zero]
  refine ⟨fun he => ?_, fun he => ?_⟩ <;> simp only [byte, h0, wordAt, he]
  · exact toNat_assemble_le _ _ _ _
  · exact toNat_assemble_be _ _ _ _

/-- Settles O55, by what the list of ranges says of one byte and of the four bytes of a word. -/
theorem memOkIsFalseExactlyOnTheListedRanges : Obligations.MemOkIsFalseExactlyOnTheListedRanges :=
  fun p a => ⟨memOk_eq_false_iff p a, wordOk_iff p a⟩

end

section
/-! Proofs of the family 20_memory.md, part 2: the engine's accesses, to its destination alone (O43) and to a
listed range (O56). -/

open Sys2Proof.Spec

namespace Sys2Proof.Machine

/-! ### The step where the engine moves -/

/-- Where the engine moves, the step is the engine's turn in the state with the inputs that still wait. -/
theorem step_of_engineMoves {s : State} {rest : List TimedInput} (hb : s.engine = .busy)
    (hm : EngineMoves s rest) : step s = (engineTurn { s with inputs := rest }).outcome := by
  rw [step_eq_outcome]
  rcases hm with ⟨hi, rfl⟩ | ⟨n, x, tail, hi, rfl⟩
  · have e : { s with inputs := [] } = s := by rw [← hi]
    rw [fetchNext, hi, e]
    simp only [hb, if_true]
  · rw [fetchNext, hi]
    simp [hb]

theorem engineStep_of_engineMoves {s t : State} {rest : List TimedInput} (hb : s.engine = .busy)
    (hm : EngineMoves s rest) (h : step s = .next t) : EngineStep { s with inputs := rest } t :=
  engineStep_of_engineTurn hb (step_of_engineMoves hb hm ▸ h)

/-- A turn that reads a word without memory is the abort of 42_sequencer.md R178. -/
theorem engineTurn_of_not_wordOk {s : State} (hb : s.engine = .busy) (hp : s.phase = .read)
    (hlt : s.pix.toNat < s.lat.len.toNat) (hw : PackerWidth s.lat.bppp)
    (hok : wordOk s.plat s.sp = false) :
    (engineTurn s).outcome = .next (raiseAbort .busRead s.sp s) := by
  have hread : (engineTurn s).outcome = .next (readStep (packBytes s.lat.bppp) s) := by
    simp [engineTurn, hp, hlt, Fetched.outcome, exec_decodePack_of_packer hw]
  rcases readStep_cases (packBytes s.lat.bppp) s with ⟨hn, -⟩ | ⟨-, -, e⟩ | ⟨-, hok', -⟩
  · exact absurd ⟨hb, hp, hlt⟩ hn
  · rw [hread, e]
  · exact absurd (hok'.symm.trans hok) nofun

/-- A turn that writes where there is no memory is the abort of 42_sequencer.md R179. -/
theorem engineTurn_of_not_memOk {s : State} {v : Byte} (hp : s.phase = .write)
    (hv : s.out[s.byteIdx.toNat]? = some v) (hok : memOk s.plat s.dp = false) :
    (engineTurn s).outcome = .next (raiseAbort .busWrite s.dp s) := by
  have hwrite : (engineTurn s).outcome = writeStep s := by simp [engineTurn, hp, Fetched.outcome]
  rw [hwrite, writeStep_of_not_memOk hv hok]

/-! ### What the engine's step does to memory -/

@[simp] theorem afterWrite_mem (s : State) : (afterWrite s).mem = s.mem := by
  obtain ⟨_, _, _, _, _, _, e⟩ := afterWrite_frame s
  rw [e]

@[simp] theorem afterWrite_plat (s : State) : (afterWrite s).plat = s.plat := by
  obtain ⟨_, _, _, _, _, _, e⟩ := afterWrite_frame s
  rw [e]

/-- An engine step leaves memory as it is, or is a write step that stores one byte at `dp`. -/
theorem EngineStep.mem_cases {s t : State} (h : EngineStep s t) :
    t.mem = s.mem ∨ (s.phase = .write ∧ ∃ v, t.mem = s.mem.set s.dp.toNat v) := by
  cases h with
  | store v k hp hok => exact .inr ⟨hp, v, afterWrite_mem _⟩
  | _ => exact .inl rfl

/-- A byte that an engine step changes is the one at `dp`, in phase WRITE. -/
theorem EngineStep.eq_dp_of_byteAt_ne {s t : State} {x : Addr} (h : EngineStep s t)
    (hx : byteAt t x ≠ byteAt s x) : s.phase = .write ∧ x = s.dp := by
  rcases h.mem_cases with e | ⟨hp, v, e⟩
  · exact absurd (by rw [byteAt, e, byteAt]) hx
  · refine ⟨hp, by_contra fun hne => hx ?_⟩
    rw [byteAt, e]
    exact byteAt_storeByte_other s v hne

/-! ### The destination range of a running conversion -/

/-- Address `a` lies in the destination range of `L` (20_memory.md R62). -/
abbrev InDestination (L : Latched) (a : Addr) : Prop :=
  L.dstAddr.toNat ≤ a.toNat ∧ a.toNat < L.dstAddr.toNat + L.bppp.toNat * L.len.toNat

/-- The packed bytes of a pixel end no later than the whole destination (42_sequencer.md R180). -/
theorem pixel_end_le {b k n : Nat} (hk : k < n) : b * k + b ≤ b * n :=
  Nat.mul_succ b k ▸ Nat.mul_le_mul_left b hk

/-- The destination of a conversion with a pixel in it ends at 2^32 or before (42_sequencer.md R171). -/
theorem BusyOk.destination_end {s : State} (h : BusyOk s) {k : Nat} (hk : k < s.lat.len.toNat) :
    s.lat.dstAddr.toNat + s.lat.bppp.toNat * s.lat.len.toNat ≤ 2 ^ 32 := by
  have hne : s.lat.len ≠ 0 := fun e => by simp [e] at hk
  obtain ⟨-, -, hend, -⟩ := h.buffers hne
  exact hend

/-- In phase WRITE the destination cursor counts the bytes written, without a wrap (10_state.md R41). -/
theorem BusyOk.toNat_dp {s : State} (h : BusyOk s) (hp : s.phase = .write) :
    s.dp.toNat =
      s.lat.dstAddr.toNat + (s.lat.bppp.toNat * s.pix.toNat + s.byteIdx.toNat) := by
  obtain ⟨hlt, hj, -⟩ := h.writing hp
  have hend := h.destination_end hlt
  have hpix := pixel_end_le (b := s.lat.bppp.toNat) hlt
  have hb : s.lat.bppp.toNat % 2 ^ 32 = s.lat.bppp.toNat := Nat.mod_eq_of_lt (by omega)
  rw [h.destination]
  simp only [BitVec.toNat_add, BitVec.toNat_mul, BitVec.toNat_setWidth, hb]
  omega

/-- In phase WRITE the destination cursor lies in the destination range. -/
theorem BusyOk.dp_inDestination {s : State} (h : BusyOk s) (hp : s.phase = .write) :
    InDestination s.lat s.dp := by
  obtain ⟨hlt, hj, -⟩ := h.writing hp
  have hdp := h.toNat_dp hp
  have hpix := pixel_end_le (b := s.lat.bppp.toNat) hlt
  exact ⟨by omega, by omega⟩

/-- In phase WRITE a byte is held at the byte index (42_sequencer.md R175). -/
theorem BusyOk.heldByte {s : State} (h : BusyOk s) (hp : s.phase = .write) :
    ∃ v, s.out[s.byteIdx.toNat]? = some v := by
  obtain ⟨-, hj, hout⟩ := h.writing hp
  exact ⟨_, List.getElem?_eq_getElem (hout ▸ hj)⟩

end Sys2Proof.Machine

open Sys2Proof.Machine

/-- Settles O43: the changed byte is at `dp`, and the cursors of the invariant put `dp` in the range. -/
theorem engineWritesOnlyItsDestination : Obligations.EngineWritesOnlyItsDestination := by
  intro s t rest x hI hb hm ht hx
  obtain ⟨hp, rfl⟩ := (engineStep_of_engineMoves hb hm ht).eq_dp_of_byteAt_ne hx
  exact ⟨rfl, (hI.conversion hb).dp_inDestination hp⟩

/-- Settles O56: MEM_OK fails on the range, so the turn is the bus error of its phase. -/
theorem engineAccessToAListedRangeAborts : Obligations.EngineAccessToAListedRangeAborts := by
  intro s rest r a hI hb hm hr hlo hhi
  have hB := hI.conversion hb
  have ha : memOk s.plat a = false := (memOk_eq_false_iff _ _).mpr ⟨r, hr, hlo, hhi⟩
  rw [step_of_engineMoves hb hm]
  refine ⟨fun hp hlt ⟨k, hk, hak⟩ => ?_, fun hp had => ?_⟩
  · exact engineTurn_of_not_wordOk (s := { s with inputs := rest }) hb hp hlt hB.packer
      (wordOk_eq_false hk (hak ▸ ha))
  · obtain ⟨v, hv⟩ := hB.heldByte hp
    exact engineTurn_of_not_memOk (s := { s with inputs := rest }) hp hv (had ▸ ha)

end

section
/-! Proofs of the family 20_memory.md, part 3: every step keeps the canonical form of memory (O51) and the
platform (O52). -/

namespace Sys2Proof.Machine

/-! ### The operations of the host touch neither memory nor the platform (20_memory.md R64) -/

theorem commandStart_mem_plat (s : State) :
    (commandStart s).mem = s.mem ∧ (commandStart s).plat = s.plat := by
  rcases commandStart_cases s with ⟨-, e⟩ | ⟨-, -, e⟩ | ⟨-, c, a, -, e⟩ <;> rw [e] <;>
    exact ⟨rfl, rfl⟩

theorem commandClear_mem_plat (s : State) :
    (commandClear s).mem = s.mem ∧ (commandClear s).plat = s.plat := by
  rcases commandClear_cases s with ⟨-, e⟩ | ⟨-, e⟩ <;> rw [e] <;> exact ⟨rfl, rfl⟩

theorem HostEffect.mem_plat {s t : State} {i : Instr} (h : HostEffect s i t) :
    t.mem = s.mem ∧ t.plat = s.plat := by
  cases h with
  | answer => exact ⟨rfl, rfl⟩
  | write _ q d => exact ⟨writeReg_mem q d s, writeReg_plat q d s⟩
  | start => exact commandStart_mem_plat s
  | clear => exact commandClear_mem_plat s
  | clearStart =>
    obtain ⟨hm, hp⟩ := commandStart_mem_plat (commandClear s)
    obtain ⟨hm', hp'⟩ := commandClear_mem_plat s
    exact ⟨hm.trans hm', hp.trans hp'⟩

/-! ### The canonical form of memory (entry 1) -/

theorem EngineStep.mem_wf {s t : State} (h : EngineStep s t) (hm : s.mem.wf = true) :
    t.mem.wf = true := by
  rcases h.mem_cases with e | ⟨-, v, e⟩ <;> rw [e]
  · exact hm
  · exact Memory.wf_set s.dp.isLt hm

theorem InputEffect.mem_wf {s t : State} {x : Input} (h : InputEffect s x t) (hm : s.mem.wf = true) :
    t.mem.wf = true := by
  cases h with
  | answer => exact hm
  | operation _ _ _ hi => exact hi.mem_plat.1 ▸ hm
  | memRead => exact hm
  | memWrite a v m q k hk => exact hk hm
  | reset => exact Memory.wf_freeRange _ _ _ hm

/-! ### The platform (entry 3) -/

theorem EngineStep.plat_eq {s t : State} (h : EngineStep s t) : t.plat = s.plat := by
  cases h with
  | store v k => exact afterWrite_plat _
  | _ => rfl

theorem InputEffect.plat_eq {s t : State} {x : Input} (h : InputEffect s x t) : t.plat = s.plat := by
  cases h with
  | operation _ _ _ hi => exact hi.mem_plat.2
  | _ => rfl

end Sys2Proof.Machine

open Sys2Proof.Machine

/-- Settles O51, by the three kinds of step. -/
theorem stepKeepsMemoryCanonical : Obligations.StepKeepsMemoryCanonical := by
  intro s t hm ht
  rcases step_cases ht with ⟨-, -, rfl⟩ | ⟨-, rest, -, he⟩ | ⟨x, rest, -, hx⟩
  · exact hm
  · exact he.mem_wf hm
  · exact hx.mem_wf hm

/-- Settles O52, by the three kinds of step. -/
theorem noStepChangesThePlatform : Obligations.NoStepChangesThePlatform := by
  intro s t ht
  rcases step_cases ht with ⟨-, -, rfl⟩ | ⟨-, rest, -, he⟩ | ⟨x, rest, -, hx⟩
  · rfl
  · exact he.plat_eq
  · exact hx.plat_eq

end

section
/-! Proofs of the family 20_memory.md, part 4: the step that serves an input: a legal register access (O6), which
leaves a running conversion alone (O15), and an outside read (O44) or write (O45) of memory. -/

open Sys2Proof.Spec

namespace Sys2Proof.Machine

/-! ### The step where an input is served -/

/-- Where an input is served, the step is what the input does in the state without it. -/
theorem step_of_served {s : State} {x : Input} {rest : List TimedInput} (h : Served s x rest) :
    step s = (serveInput x { s with inputs := rest }).outcome := by
  obtain ⟨n, hi, hn⟩ := h
  have hserve : ¬ (s.engine = .busy ∧ n ≠ 0) := by tauto
  rw [step_eq_outcome, fetchNext, hi]
  simp only [hserve, if_false]

/-! ### A legal register access -/

/-- The host address at an offset of the window (20_memory.md R51). -/
theorem windowOffset_add (p : Platform) (off : Offset) :
    windowOffset p (p.ppPage * 0x1000 + off.toNat) = some off := by
  have hlt : off.toNat < 0x1000 := off.isLt
  have hin : ppBase p ≤ p.ppPage * 0x1000 + off.toNat ∧
      p.ppPage * 0x1000 + off.toNat < ppBase p + windowSize := by
    simp only [ppBase, windowSize]
    omega
  have hsub : p.ppPage * 0x1000 + off.toNat - ppBase p = off.toNat := Nat.add_sub_cancel_left ..
  rw [windowOffset, if_pos hin, hsub, BitVec.ofNat_toNat, BitVec.setWidth_eq]

/-- A legal access runs the operation its transaction word decodes to (20_memory.md R52). -/
theorem serveAccess_of_legal {a : HostAccess} {s : State} {off : Offset} {i : Instr}
    (hw : windowOffset s.plat a.addr = some off) (hl : legalAccess off a.bytes = true)
    (hd : decode (.mmio (accessWord off a)) = .ok i) : serveAccess a s = .run i s := by
  simp [serveAccess, hw, hl, hd]

/-- A host operation answers, writes a register or is a command. -/
theorem hostEffect_of_isHostOp {i : Instr} (h : isHostOp i = true) (s : State) :
    ∃ t, exec i s = .next t ∧ HostEffect s i t := by
  cases i with
  | pack1 | pack2 | pack3 | packInvalid b => cases h
  | ctrlStart r => exact ⟨_, rfl, .start r⟩
  | ctrlClear r => exact ⟨_, rfl, .clear r⟩
  | ctrlClearStart r => exact ⟨_, rfl, .clearStart r⟩
  | wrSrcCfg d | wrSrcMaxRG d | wrSrcMaxB d | wrSrcShift d | wrDstCfg d | wrDstMaxRG d | wrDstMaxB d
  | wrDstShift d | wrBppp d | wrLen d | wrSrcAddr d | wrDstAddr d | wrIrqEn d | wrStatus d
  | wrPixelsDone d | wrFaultAddr d | wrId d => exact ⟨_, rfl, .write _ _ d⟩
  | _ => exact ⟨_, rfl, .answer _ _⟩

theorem commandStart_of_busy {s : State} (hb : s.engine = .busy) : commandStart s = s := by
  simp [commandStart, hb]

theorem commandClear_of_busy {s : State} (hb : s.engine = .busy) : commandClear s = s := by
  simp [commandClear, hb]

/-- While BUSY the commands are ignored, so an operation of the host is at most a register write
(40_host_ops.md R137 to R139). -/
theorem HostEffect.of_busy {s t : State} {i : Instr} (hb : s.engine = .busy) (h : HostEffect s i t) :
    ∃ r q d, t = respond r (writeReg q d s) := by
  have hanswer (r : Response) : ∃ r' q d, respond r s = respond r' (writeReg q d s) :=
    ⟨r, .id, 0, rfl⟩
  cases h with
  | answer _ r => exact hanswer r
  | write _ q d => exact ⟨_, q, d, rfl⟩
  | start =>
    rw [commandStart_of_busy hb]
    exact hanswer .done
  | clear =>
    rw [commandClear_of_busy hb]
    exact hanswer .done
  | clearStart =>
    rw [commandClear_of_busy hb, commandStart_of_busy hb]
    exact hanswer .done

/-! ### The pixel an address belongs to -/

/-- Address `a` lies in the source range of `L` (20_memory.md R62). -/
abbrev InSource (L : Latched) (a : Addr) : Prop :=
  L.srcAddr.toNat ≤ a.toNat ∧ a.toNat < L.srcAddr.toNat + 4 * L.len.toNat

/-- Address `a` is one of the `w` bytes of element `k` of a buffer at `base`. -/
abbrev InElement (base w k : Nat) (a : Addr) : Prop :=
  base + w * k ≤ a.toNat ∧ a.toNat < base + w * k + w

/-- The element of a buffer of `n` elements of `w` bytes that holds an address of the buffer. -/
theorem inElement_div {base w n : Nat} {a : Addr} (h : base ≤ a.toNat ∧ a.toNat < base + w * n) :
    (a.toNat - base) / w < n ∧ InElement base w ((a.toNat - base) / w) a := by
  obtain ⟨hlo, hhi⟩ := h
  have hlt : a.toNat - base < w * n := by omega
  have hw : 0 < w := Nat.pos_of_ne_zero fun e => by simp [e] at hlt
  have hdiv := Nat.div_add_mod (a.toNat - base) w
  have hmod := Nat.mod_lt (a.toNat - base) hw
  exact ⟨Nat.div_lt_of_lt_mul hlt, by omega, by omega⟩

/-- An address races with a pixel exactly when it is in a buffer of the conversion (20_memory.md R69). -/
theorem racedPixel_eq_none_iff (L : Latched) (a : Addr) :
    racedPixel L a = none ↔ ¬ (InSource L a ∨ InDestination L a) := by
  simp only [racedPixel, srcPixelOf, dstPixelOf, srcEnd, dstEnd]
  by_cases hS : InSource L a <;> by_cases hD : InDestination L a <;> simp [hS, hD]

/-- The pixel an address races with is one of the conversion's, and its source word or its packed bytes hold
the address (20_memory.md R69). -/
theorem racedPixel_eq_some {L : Latched} {a : Addr} {k : Nat} (h : racedPixel L a = some k) :
    k < L.len.toNat ∧
      (InElement L.srcAddr.toNat 4 k a ∨ InElement L.dstAddr.toNat L.bppp.toNat k a) := by
  simp only [racedPixel, srcPixelOf, dstPixelOf, srcEnd, dstEnd] at h
  by_cases hS : InSource L a
  · obtain ⟨hk, hin⟩ := inElement_div hS
    obtain rfl : _ = k := by simpa [hS] using h
    exact ⟨hk, .inl hin⟩
  · by_cases hD : InDestination L a
    · obtain ⟨hk, hin⟩ := inElement_div hD
      obtain rfl : _ = k := by simpa [hS, hD] using h
      exact ⟨hk, .inr hin⟩
    · simp [hS, hD] at h

/-! ### Outside accesses (20_memory.md R69) -/

theorem outsideRead_of_destination {s : State} {a : Addr} (hb : s.engine = .busy)
    (ha : InDestination s.lat a) :
    outsideRead a s = { s with resp := .byte (Config.freeByte s.draws), draws := s.draws + 1 } :=
  if_pos ⟨hb, by simp [dstPixelOf, dstEnd, ha]⟩

theorem outsideRead_of_not_destination {s : State} {a : Addr}
    (h : ¬ (s.engine = .busy ∧ InDestination s.lat a)) :
    outsideRead a s = { s with resp := .byte (byteAt s a) } := by
  refine if_neg fun ⟨hb, hd⟩ => h ⟨hb, by_contra fun hn => ?_⟩
  simp [dstPixelOf, dstEnd, hn] at hd

theorem outsideWrite_of_raced {s : State} {a : Addr} {v : Byte} {k : Nat} (hb : s.engine = .busy)
    (hk : racedPixel s.lat a = some k) : outsideWrite a v s = racingWrite k a s := by
  simp [outsideWrite, hb, hk]

theorem outsideWrite_of_not_raced {s : State} {a : Addr} {v : Byte}
    (h : ¬ (s.engine = .busy ∧ (InSource s.lat a ∨ InDestination s.lat a))) :
    outsideWrite a v s = respond .done (storeByte a v s) := by
  have hnone : (if s.engine = .busy then racedPixel s.lat a else none) = none := by
    split
    · next hb => exact (racedPixel_eq_none_iff _ _).mpr fun hr => h ⟨hb, hr⟩
    · rfl
  rw [outsideWrite, hnone]

/-- A race marks its pixel and keeps the marks of the earlier ones (entry 8). -/
theorem mem_raced_racingWrite (k k' : Nat) (a : Addr) (s : State) :
    k' ∈ (racingWrite k a s).raced ↔ k' = k ∨ k' ∈ s.raced := by
  simp only [racingWrite]
  split
  · next h =>
    refine ⟨.inr, ?_⟩
    rintro (rfl | h')
    · exact List.contains_iff_mem.mp h
    · exact h'
  · exact List.mem_cons

/-- The packed bytes of a pixel of the conversion lie one after the other, without a wrap. -/
theorem BusyOk.toNat_pixelDst_add {s : State} (h : BusyOk s) {k t : Nat} (hk : k < s.lat.len.toNat)
    (ht : t < s.lat.bppp.toNat) :
    (pixelDst s.lat k + BitVec.ofNat 32 t).toNat =
      s.lat.dstAddr.toNat + s.lat.bppp.toNat * k + t := by
  have hend := h.destination_end hk
  have hpix := pixel_end_le (b := s.lat.bppp.toNat) hk
  simp only [pixelDst, BitVec.toNat_add, BitVec.toNat_ofNat]
  omega

/-- A race with pixel `k` changes no byte but the one written and the pixel's packed bytes. -/
theorem BusyOk.get_racingWrite_other {s : State} (h : BusyOk s) {k : Nat} {a x : Addr}
    (hk : k < s.lat.len.toNat) (hx : x ≠ a)
    (hout : x.toNat < s.lat.dstAddr.toNat + s.lat.bppp.toNat * k ∨
      s.lat.dstAddr.toNat + s.lat.bppp.toNat * k + s.lat.bppp.toNat ≤ x.toNat) :
    Memory.get x.toNat (racingWrite k a s).mem = byteAt s x := by
  have hne : ∀ t < s.lat.bppp.toNat, x.toNat ≠ (pixelDst s.lat k + BitVec.ofNat 32 t).toNat := by
    intro t ht
    rw [h.toNat_pixelDst_add hk ht]
    omega
  exact (Memory.get_freeRange_other _ _ _ _ hne).trans (byteAt_storeByte_other s _ hx)

end Sys2Proof.Machine

open Sys2Proof.Machine

/-- Settles O6: the address is in the window and legal, so the served access runs its operation. -/
theorem stepRunsTheDecodedTransaction : Obligations.StepRunsTheDecodedTransaction := by
  intro s a rest off i hx haddr hbytes halign hd
  have hl : legalAccess off a.bytes = true := by
    simp [legalAccess, hbytes, (Sys2Proof.alignedOffset_iff off).mpr halign]
  have hserve : serveAccess a { s with inputs := rest } = .run i { s with inputs := rest } :=
    serveAccess_of_legal (haddr ▸ windowOffset_add s.plat off) hl hd
  rw [step_of_served hx, serveInput, hserve, Fetched.outcome]

/-- Settles O15: while BUSY a host operation is an answer with at most a register write. -/
theorem hostOperationsLeaveTheRunningConversion :
    Obligations.HostOperationsLeaveTheRunningConversion := by
  intro i s hi hb
  obtain ⟨t, ht, he⟩ := hostEffect_of_isHostOp hi s
  obtain ⟨r, q, d, rfl⟩ := he.of_busy hb
  exact ⟨_, ht, by simp [hb]⟩

/-- Settles O44, by whether the byte is one of the running conversion's destination. -/
theorem outsideReadOfADestinationByteIsFree : Obligations.OutsideReadOfADestinationByteIsFree := by
  intro s a rest hx
  rw [step_of_served hx, serveInput, Fetched.outcome]
  split
  · next h =>
    obtain ⟨hb, ha⟩ := h
    exact ⟨_, congrArg _ (outsideRead_of_destination (s := { s with inputs := rest }) hb ha)⟩
  · next h => exact congrArg _ (outsideRead_of_not_destination (s := { s with inputs := rest }) h)

/-- Settles O45: the pixel is the one whose source word or packed bytes hold the address. -/
theorem outsideWriteRacesWithOnePixelOnly : Obligations.OutsideWriteRacesWithOnePixelOnly := by
  intro s a v rest hI hx S D b n
  rw [step_of_served hx, serveInput, Fetched.outcome]
  have hI' := hI.withInputs rest
  split
  · next h =>
    obtain ⟨hb, hin⟩ := h
    obtain ⟨k, hk⟩ := Option.ne_none_iff_exists'.mp
      fun hnone => (racedPixel_eq_none_iff s.lat a).mp hnone hin
    obtain ⟨hlt, hholds⟩ := racedPixel_eq_some hk
    rw [outsideWrite_of_raced (s := { s with inputs := rest }) hb hk]
    exact ⟨k, _, _, _, hlt, hholds, rfl, fun k' => mem_raced_racingWrite k k' a _,
      fun x hne hout => (hI'.conversion hb).get_racingWrite_other hlt hne hout⟩
  · next h =>
    rw [outsideWrite_of_not_raced (s := { s with inputs := rest }) h]
    exact ⟨_, rfl, byteAt_storeByte_self hI'.memory,
      fun x hne => byteAt_storeByte_other { s with inputs := rest } v hne⟩

end

section
/-! Proofs of the family 30_encoding.md, part 1: the encoder and the decoder undo each other (O1, O2), the rows of
CTRL (O3), the pack modes (O4) and printed words (O5). -/

open Sys2Proof.Spec

namespace Sys2Proof

/-- A field of a field is a field of the word. -/
theorem extractLsb'_extractLsb' {w a m n : Nat} (x : BitVec w) (b : Nat) (h : a + n ≤ m) :
    (x.extractLsb' b m).extractLsb' a n = x.extractLsb' (b + a) n := by
  apply BitVec.eq_of_getLsbD_eq
  intro k hk
  have hm : a + k < m := by omega
  simp only [BitVec.getLsbD_extractLsb', hm, decide_true, Bool.true_and, Nat.add_assoc]

/-! ### The commands of CTRL (30_encoding.md R83) -/

/-- The command of the two bits CLEAR and START. -/
def ctrlCommand : (clear start : Bool) → BitVec 30 → Instr
  | false, false => .ctrlNop
  | false, true => .ctrlStart
  | true, false => .ctrlClear
  | true, true => .ctrlClearStart

theorem ctrlInstr_eq_ctrlCommand (d : Word) :
    ctrlInstr d = ctrlCommand (d.getLsbD 1) (d.getLsbD 0) (d.extractLsb' 2 30) := by
  unfold ctrlInstr
  cases d.getLsbD 1 <;> cases d.getLsbD 0 <;> rfl

theorem encode_ctrlCommand (c s : Bool) (rest : BitVec 30) :
    encode (ctrlCommand c s rest) = encodeCtrl rest c s := by
  cases c <;> cases s <;> rfl

/-- The block ignores `DATA[31:2]`. -/
theorem exec_ctrlCommand_rest (c s : Bool) (r r' : BitVec 30) (st : Machine.State) :
    Machine.exec (ctrlCommand c s r) st = Machine.exec (ctrlCommand c s r') st := by
  cases c <;> cases s <;> rfl

/-- DATA is its three fields `{rest, CLEAR, START}`. -/
theorem ctrlData_eta (d : Word) :
    (d.extractLsb' 2 30 ++ BitVec.ofBool (d.getLsbD 1) ++ BitVec.ofBool (d.getLsbD 0) :
      BitVec (30 + 1 + 1)) = d := by
  apply BitVec.eq_of_getLsbD_eq
  intro k hk
  rw [BitVec.getLsbD_append, BitVec.getLsbD_append]
  match k with
  | 0 => simp
  | 1 => simp
  | k + 2 =>
    have hk' : k < 30 := by omega
    simp [hk', Nat.add_comm 2 k]

/-- A word that matches a CTRL row has the row's W, OFF and `DATA[1:0]`. -/
theorem fields_of_ctrlMask {t : TransWord} {w : Bool} {off : Offset} {d : Word}
    (h : t &&& 0x1fff00000003#45 = transWord w off d) :
    transW t = w ∧ transOff t = off ∧ transData t &&& 3 = d := by
  rw [← transWord_eta t, transWord_and_ctrlMask] at h
  have hw := congrArg transW h
  have hoff := congrArg transOff h
  have hdata := congrArg transData h
  simp only [transW_transWord, transOff_transWord, transData_transWord] at hw hoff hdata
  exact ⟨hw, hoff, hdata⟩

/-- The row of the command `{CLEAR, START} = {c, s}`. -/
theorem commandRow_ctrlCommand (c s : Bool) :
    CommandRow
      (transWord true RegName.ctrl.offset
        (0#30 ++ BitVec.ofBool c ++ BitVec.ofBool s : BitVec (30 + 1 + 1)))
      (ctrlCommand c s) := by
  refine ⟨fun t ht => ?_, exec_ctrlCommand_rest c s⟩
  obtain ⟨hw, hoff, hdata⟩ := fields_of_ctrlMask ht
  obtain ⟨hstart, hclear, -⟩ := ctrlData_bits 0#30 c s
  have h0 : (transData t).getLsbD 0 = s := by
    rw [← hstart, ← hdata]
    simp
  have h1 : (transData t).getLsbD 1 = c := by
    rw [← hclear, ← hdata]
    simp
  have hrest : (transData t).extractLsb' 2 30 = t.extractLsb' 2 30 :=
    extractLsb'_extractLsb' t 0 (by decide)
  calc decodeMmio t
      = decodeMmio (transWord true RegName.ctrl.offset (transData t)) := by
        rw [← hw, ← hoff, transWord_eta]
    _ = .ok (ctrlInstr (transData t)) := decodeMmio_write .ctrl _
    _ = .ok (ctrlCommand c s (t.extractLsb' 2 30)) := by
        rw [ctrlInstr_eq_ctrlCommand, h0, h1, hrest]

/-! ### The reserved offsets (30_encoding.md R89, R90) -/

/-- An aligned offset is a register's or a reserved one. -/
theorem offset_or_reserved {off : Offset} (h : alignedOffset off = true) :
    (∃ r : RegName, r.offset = off) ∨ reservedOffset off := by
  by_cases hlt : off.toNat < 0x048
  · obtain ⟨r, hr⟩ := regAt_isSome h hlt
    exact .inl ⟨r, offset_of_regAt hr⟩
  · have halign := (alignedOffset_iff off).mp h
    have hbound := off.isLt
    exact .inr ⟨by omega, by omega, halign⟩

theorem decodeMmio_readReserved {off : Offset} (h : reservedOffset off) (d : Word) :
    decodeMmio (transWord false off d) = .ok (.rdRsvd off) := by
  obtain ⟨hlow, -, halign⟩ := h
  simp [decodeMmio, (alignedOffset_iff off).mpr halign, regAt_of_le hlow]

theorem decodeMmio_writeReserved {off : Offset} (h : reservedOffset off) (d : Word) :
    decodeMmio (transWord true off d) = .ok (.wrRsvd off d) := by
  obtain ⟨hlow, -, halign⟩ := h
  simp [decodeMmio, (alignedOffset_iff off).mpr halign, regAt_of_le hlow]

/-! ### The pack modes (30_encoding.md R87) -/

theorem decodePack_of_invalidWidth {b : Byte} (h : invalidWidth b) :
    decodePack b = .packInvalid b := by
  obtain ⟨h1, h2, h3⟩ := h
  simp only [decodePack, h1, h2, h3, if_false]

/-- A width is one that a packer has, or PACK_INVALID's. -/
theorem width_cases (b : Byte) : b = 1 ∨ b = 2 ∨ b = 3 ∨ invalidWidth b := by
  unfold invalidWidth
  tauto

theorem wf_decodePack (b : Byte) : (decodePack b).wf = true := by
  rcases width_cases b with rfl | rfl | rfl | h
  · rfl
  · rfl
  · rfl
  · rw [decodePack_of_invalidWidth h]
    exact decide_eq_true h

theorem encode_decodePack (b : Byte) : encode (decodePack b) = .pack b := by
  rcases width_cases b with rfl | rfl | rfl | h
  · rfl
  · rfl
  · rfl
  · rw [decodePack_of_invalidWidth h]
    rfl

/-! ### The register rows (30_encoding.md R89) -/

theorem wf_readInstr (r : RegName) : (readInstr r).wf = true := by cases r <;> rfl

theorem encode_readInstr (r : RegName) :
    encode (readInstr r) = .mmio (transWord false r.offset 0) := by cases r <;> rfl

theorem wf_ctrlCommand (c s : Bool) (rest : BitVec 30) : (ctrlCommand c s rest).wf = true := by
  cases c <;> cases s <;> rfl

theorem wf_writeInstr (d : Word) (r : RegName) : (writeInstr d r).wf = true := by
  cases r with
  | ctrl =>
    rw [writeInstr, ctrlInstr_eq_ctrlCommand]
    exact wf_ctrlCommand _ _ _
  | _ => rfl

theorem encode_writeInstr (d : Word) (r : RegName) :
    encode (writeInstr d r) = .mmio (transWord true r.offset d) := by
  cases r with
  | ctrl =>
    rw [writeInstr, ctrlInstr_eq_ctrlCommand, encode_ctrlCommand, encodeCtrl, ctrlData_eta]
    rfl
  | _ => rfl

/-- A command is the write of its DATA to CTRL. -/
theorem ctrlCommand_eq_writeInstr (c s : Bool) (rest : BitVec 30) :
    ctrlCommand c s rest =
      writeInstr (rest ++ BitVec.ofBool c ++ BitVec.ofBool s : BitVec (30 + 1 + 1)) .ctrl := by
  rw [writeInstr, ctrlInstr_data]
  cases c <;> cases s <;> rfl

/-! ### The rows of the table -/

/-- The operations as the decoder builds them: from a register, a reserved offset or a latched width. -/
inductive IsRow : Instr → Prop
  | read (r : RegName) : IsRow (readInstr r)
  | write (d : Word) (r : RegName) : IsRow (writeInstr d r)
  | readReserved {off : Offset} : reservedOffset off → IsRow (.rdRsvd off)
  | writeReserved {off : Offset} (d : Word) : reservedOffset off → IsRow (.wrRsvd off d)
  | packMode (b : Byte) : IsRow (decodePack b)

theorem IsRow.wf {i : Instr} (h : IsRow i) : i.wf = true := by
  cases h with
  | read r => exact wf_readInstr r
  | write d r => exact wf_writeInstr d r
  | readReserved hoff => exact decide_eq_true hoff
  | writeReserved d hoff => exact decide_eq_true hoff
  | packMode b => exact wf_decodePack b

theorem isRow_ctrlCommand (c s : Bool) (rest : BitVec 30) : IsRow (ctrlCommand c s rest) :=
  ctrlCommand_eq_writeInstr c s rest ▸ .write _ .ctrl

theorem isRow_of_wf {i : Instr} (h : i.wf = true) : IsRow i := by
  cases i with
  | rdSrcCfg => exact .read .srcCfg
  | rdSrcMaxRG => exact .read .srcMaxRG
  | rdSrcMaxB => exact .read .srcMaxB
  | rdSrcShift => exact .read .srcShift
  | rdDstCfg => exact .read .dstCfg
  | rdDstMaxRG => exact .read .dstMaxRG
  | rdDstMaxB => exact .read .dstMaxB
  | rdDstShift => exact .read .dstShift
  | rdBppp => exact .read .bppp
  | rdLen => exact .read .len
  | rdSrcAddr => exact .read .srcAddr
  | rdDstAddr => exact .read .dstAddr
  | rdCtrl => exact .read .ctrl
  | rdStatus => exact .read .status
  | rdIrqEn => exact .read .irqEn
  | rdPixelsDone => exact .read .pixelsDone
  | rdFaultAddr => exact .read .faultAddr
  | rdId => exact .read .id
  | wrSrcCfg d => exact .write d .srcCfg
  | wrSrcMaxRG d => exact .write d .srcMaxRG
  | wrSrcMaxB d => exact .write d .srcMaxB
  | wrSrcShift d => exact .write d .srcShift
  | wrDstCfg d => exact .write d .dstCfg
  | wrDstMaxRG d => exact .write d .dstMaxRG
  | wrDstMaxB d => exact .write d .dstMaxB
  | wrDstShift d => exact .write d .dstShift
  | wrBppp d => exact .write d .bppp
  | wrLen d => exact .write d .len
  | wrSrcAddr d => exact .write d .srcAddr
  | wrDstAddr d => exact .write d .dstAddr
  | wrIrqEn d => exact .write d .irqEn
  | wrStatus d => exact .write d .status
  | wrPixelsDone d => exact .write d .pixelsDone
  | wrFaultAddr d => exact .write d .faultAddr
  | wrId d => exact .write d .id
  | ctrlNop rest => exact isRow_ctrlCommand false false rest
  | ctrlStart rest => exact isRow_ctrlCommand false true rest
  | ctrlClear rest => exact isRow_ctrlCommand true false rest
  | ctrlClearStart rest => exact isRow_ctrlCommand true true rest
  | rdRsvd off => exact .readReserved (of_decide_eq_true h)
  | wrRsvd off d => exact .writeReserved d (of_decide_eq_true h)
  | pack1 => exact .packMode 1
  | pack2 => exact .packMode 2
  | pack3 => exact .packMode 3
  | packInvalid b => exact decodePack_of_invalidWidth (of_decide_eq_true h) ▸ .packMode b

/-- Decoding the encoding of an operation gives it back, row by row. -/
theorem IsRow.decode_encode {i : Instr} (h : IsRow i) : decode (encode i) = .ok i := by
  cases h with
  | read r => rw [encode_readInstr]; exact decodeMmio_read r 0
  | write d r => rw [encode_writeInstr]; exact decodeMmio_write r d
  | readReserved hoff => exact decodeMmio_readReserved hoff 0
  | writeReserved d hoff => exact decodeMmio_writeReserved hoff d
  | packMode b => rw [encode_decodePack]; rfl

/-! ### Every aligned word -/

/-- `OFF[1:0]` of a transaction word. -/
theorem alignedOffset_transOff (t : TransWord) :
    alignedOffset (transOff t) = true ↔ t.extractLsb' 32 2 = 0 := by
  rw [alignedOffset, beq_iff_eq, transOff, extractLsb'_extractLsb' t 32 (by decide : 0 + 2 ≤ 12)]

/-- A read with an aligned offset is a row, which encodes to the read with DATA 0. -/
theorem exists_row_of_read {off : Offset} (h : alignedOffset off = true) (d : Word) :
    ∃ i, decodeMmio (transWord false off d) = .ok i ∧ IsRow i ∧
      encode i = .mmio (transWord false off 0) := by
  obtain ⟨r, rfl⟩ | hoff := offset_or_reserved h
  · exact ⟨_, decodeMmio_read r d, .read r, encode_readInstr r⟩
  · exact ⟨_, decodeMmio_readReserved hoff d, .readReserved hoff, rfl⟩

/-- A write with an aligned offset is a row, which encodes to that write. -/
theorem exists_row_of_write {off : Offset} (h : alignedOffset off = true) (d : Word) :
    ∃ i, decodeMmio (transWord true off d) = .ok i ∧ IsRow i ∧
      encode i = .mmio (transWord true off d) := by
  obtain ⟨r, rfl⟩ | hoff := offset_or_reserved h
  · exact ⟨_, decodeMmio_write r d, .write d r, encode_writeInstr d r⟩
  · exact ⟨_, decodeMmio_writeReserved hoff d, .writeReserved d hoff, rfl⟩

theorem exists_row_of_aligned {t : TransWord} (h : alignedOffset (transOff t) = true) :
    ∃ i, decodeMmio t = .ok i ∧ IsRow i ∧
      encode i = .mmio (if transW t then t else t &&& 0x1fff00000000#45) := by
  obtain ⟨w, off, d, rfl⟩ : ∃ w off d, transWord w off d = t := ⟨_, _, _, transWord_eta t⟩
  rw [transOff_transWord] at h
  cases w with
  | false =>
    rw [transWord_and_rowMask, transW_transWord]
    exact exists_row_of_read h _
  | true =>
    rw [transW_transWord]
    exact exists_row_of_write h _

theorem decodeMmio_of_misaligned {t : TransWord} (h : ¬ alignedOffset (transOff t) = true) :
    decodeMmio t = .error .misalignedOffset :=
  if_neg h

end Sys2Proof

open Sys2Proof

/-- Settles O1: a well-formed operation is a row, and each kind of row is decoded from its encoding. -/
theorem decodeOfEncodeIsTheInstruction : Obligations.DecodeOfEncodeIsTheInstruction :=
  fun _ h => (isRow_of_wf h).decode_encode

/-- Settles O2, by whether the offset is aligned. -/
theorem everyLegalTransactionWordIsARow : Obligations.EveryLegalTransactionWordIsARow := by
  refine fun t => ⟨fun h => ?_, fun h => ?_⟩
  · obtain ⟨i, hd, hrow, he⟩ := exists_row_of_aligned ((alignedOffset_transOff t).mpr h)
    exact ⟨i, hd, hrow.wf, he⟩
  · exact decodeMmio_of_misaligned (mt (alignedOffset_transOff t).mp h)

/-- Settles O3, by the two bits of each command. -/
theorem ctrlWordsDecodeByTheirTwoBits : Obligations.CtrlWordsDecodeByTheirTwoBits :=
  ⟨commandRow_ctrlCommand false false, commandRow_ctrlCommand false true,
    commandRow_ctrlCommand true false, commandRow_ctrlCommand true true, Machine.exec_readInstr .ctrl⟩

/-- Settles O4: a width that is neither 1, 2 nor 3 selects no packer. -/
theorem packModeDecodesByLatchedWidth : Obligations.PackModeDecodesByLatchedWidth := by
  refine ⟨rfl, rfl, rfl, fun b hb => congrArg _ (decodePack_of_invalidWidth ?_)⟩
  refine ⟨?_, ?_, ?_⟩ <;> rintro rfl <;> simp at hb

/-- Settles O5: five words of register rows and two at reserved offsets. -/
theorem printedWordsDecode : Obligations.PrintedWordsDecode :=
  ⟨decodeMmio_write .srcCfg 0x00021820, decodeMmio_write .dstMaxRG 0x003F001F,
    decodeMmio_write .len 2, decodeMmio_write .ctrl 1, decodeMmio_read .status 0,
    decodeMmio_readReserved (off := 0xFFC) (by decide) 0,
    decodeMmio_writeReserved (off := 0x100) (by decide) 0xFFFFFFFF⟩

end

section
/-! Proofs of the family 30_encoding.md, part 2: the engine's read step runs the pack mode of the latched width (O7). -/

open Sys2Proof.Spec

namespace Sys2Proof.Machine

/-- A turn enabled to read is the operation of the latched width (42_sequencer.md R174). -/
theorem engineTurn_of_reading {s : State} (hp : s.phase = .read)
    (hlt : s.pix.toNat < s.lat.len.toNat) : engineTurn s = .run (decodePack s.lat.bppp) s := by
  simp [engineTurn, hp, hlt]

theorem step_of_reading {s : State} {rest : List TimedInput} (hb : s.engine = .busy)
    (hp : s.phase = .read) (hlt : s.pix.toNat < s.lat.len.toNat) (hm : EngineMoves s rest) :
    step s = exec (decodePack s.lat.bppp) { s with inputs := rest } := by
  rw [step_of_engineMoves hb hm, engineTurn_of_reading (s := { s with inputs := rest }) hp hlt,
    Fetched.outcome]

end Sys2Proof.Machine

open Sys2Proof.Machine

/-- Settles O7, for each of the two ways in which the engine moves. -/
theorem stepRunsTheSelectedPackMode : Obligations.StepRunsTheSelectedPackMode := by
  intro s i hb hp hlt hd
  cases hd
  refine ⟨fun hi => ?_, fun n x rest hi => ?_⟩
  · have hsame : { s with inputs := [] } = s := by rw [← hi]
    rw [step_of_reading hb hp hlt (.inl ⟨hi, rfl⟩), hsame]
  · exact step_of_reading hb hp hlt (.inr ⟨n, x, rest, hi, rfl⟩)

end

section
/-! Proofs of the family 40_host_ops.md, part 1: an illegal access (O8), the reads (O9, O10) and writes (O12, O13) of
the registers, and the accesses that change nothing (O14). -/

open Sys2Proof.Spec

namespace Sys2Proof.Machine

/-! ### An illegal access (40_host_ops.md R142) -/

/-- A legal access is 32 bits wide at a multiple of 4 (20_memory.md R52). -/
theorem legalAccess_iff (off : Offset) (bytes : Nat) :
    legalAccess off bytes = true ↔ bytes = 4 ∧ off.toNat % 4 = 0 := by
  rw [legalAccess, Bool.and_eq_true, beq_iff_eq, alignedOffset_iff]

/-- An illegal access in the window is answered with a bus error. -/
theorem serveAccess_of_illegal {a : HostAccess} {s : State} {off : Offset}
    (hw : windowOffset s.plat a.addr = some off) (hl : ¬ legalAccess off a.bytes = true) :
    serveAccess a s = .other (.next (respond .busError s)) := by
  rw [serveAccess, hw]
  exact if_neg hl

/-! ### The register rows (30_encoding.md R89) -/

/-- The word of a write row of the table is the write of its DATA to the register at its offset. -/
theorem decode_of_writeRow {t : TransWord} {r : RegName}
    (h : t &&& 0x1fff00000000#45 = transWord true r.offset 0) :
    decode (.mmio t) = .ok (writeInstr (transData t) r) := by
  obtain ⟨hw, hoff⟩ := fields_of_rowMask h
  calc decodeMmio t
      = decodeMmio (transWord true r.offset (transData t)) := by rw [← hw, ← hoff, transWord_eta]
    _ = .ok (writeInstr (transData t) r) := decodeMmio_write r _

/-- The row of a register's read: it answers what the register shows, and changes nothing else. -/
theorem readsAs_readInstr (r : RegName) {v : State → Word} (hv : ∀ s, readReg s r = v s) :
    ReadsAs (transWord false r.offset 0) (readInstr r) v := by
  refine ⟨fun t => decode_of_readRow, fun s => ?_⟩
  rw [exec_readInstr, hostRead, hv]
  rfl

/-- The row of a register's write: it makes the change that the register has, and completes. -/
theorem writesAs_writeInstr {r : RegName} (hr : r ≠ .ctrl) {f : Word → State → State}
    (hf : ∀ d s, writeReg r d s = f d s) :
    WritesAs (transWord true r.offset 0) (fun d => writeInstr d r) f := by
  refine ⟨fun t => decode_of_writeRow, fun d s => ?_⟩
  rw [exec_writeInstr hr, hostWrite, hf]
  rfl

/-! ### The registers whose 32 bits are all a field -/

/-- A register without reserved bits is masked by all ones. -/
theorem and_fieldMask_of_full {r : RegName} (hr : fieldMask r = BitVec.allOnes 32) (d : Word) :
    d &&& fieldMask r = d := by
  rw [hr, BitVec.and_allOnes]

theorem readReg_len (s : State) : readReg s .len = s.len :=
  and_fieldMask_of_full (r := .len) rfl _

theorem readReg_srcAddr (s : State) : readReg s .srcAddr = s.srcAddr :=
  and_fieldMask_of_full (r := .srcAddr) rfl _

theorem readReg_dstAddr (s : State) : readReg s .dstAddr = s.dstAddr :=
  and_fieldMask_of_full (r := .dstAddr) rfl _

theorem writeReg_srcMaxRG (d : Word) (s : State) : writeReg .srcMaxRG d s = { s with srcMaxRG := d } := by
  rw [writeReg, and_fieldMask_of_full rfl]

theorem writeReg_dstMaxRG (d : Word) (s : State) : writeReg .dstMaxRG d s = { s with dstMaxRG := d } := by
  rw [writeReg, and_fieldMask_of_full rfl]

theorem writeReg_len (d : Word) (s : State) : writeReg .len d s = { s with len := d } := by
  rw [writeReg, and_fieldMask_of_full rfl]

theorem writeReg_srcAddr (d : Word) (s : State) : writeReg .srcAddr d s = { s with srcAddr := d } := by
  rw [writeReg, and_fieldMask_of_full rfl]

theorem writeReg_dstAddr (d : Word) (s : State) : writeReg .dstAddr d s = { s with dstAddr := d } := by
  rw [writeReg, and_fieldMask_of_full rfl]

/-! ### The reserved offsets (40_host_ops.md R140, R141) -/

/-- A word at a reserved offset is RD_RSVD or WR_RSVD, by its W. -/
theorem decode_of_reservedOffset {t : TransWord} (h : reservedOffset (transOff t)) :
    decode (.mmio t) =
      .ok (if transW t then .wrRsvd (transOff t) (transData t) else .rdRsvd (transOff t)) := by
  obtain ⟨w, off, d, rfl⟩ : ∃ w off d, transWord w off d = t := ⟨_, _, _, transWord_eta t⟩
  rw [transOff_transWord] at h
  rw [transOff_transWord, transW_transWord, transData_transWord]
  cases w with
  | false => exact decodeMmio_readReserved h d
  | true => exact decodeMmio_writeReserved h d

/-- An offset is below 0x1000, so the last one that is a multiple of 4 is 0xFFC. -/
theorem reservedOffset_of_le {off : Offset} (hlow : 0x048 ≤ off.toNat) (halign : off.toNat % 4 = 0) :
    reservedOffset off := by
  have hlt : off.toNat < 0x1000 := off.isLt
  exact ⟨hlow, by omega, halign⟩

end Sys2Proof.Machine

open Sys2Proof.Machine

/-- Settles O8: the address is in the window, and the width or the offset makes the access illegal. -/
theorem illegalAccessOnlyAnswersABusError : Obligations.IllegalAccessOnlyAnswersABusError := by
  intro s a rest off hx haddr hlt hillegal
  have hoff : (BitVec.ofNat 12 off).toNat = off :=
    (BitVec.toNat_ofNat off 12).trans (Nat.mod_eq_of_lt hlt)
  have hw : windowOffset s.plat a.addr = some (BitVec.ofNat 12 off) := by
    rw [haddr, ← windowOffset_add s.plat (BitVec.ofNat 12 off), hoff]
  have hl : ¬ legalAccess (BitVec.ofNat 12 off) a.bytes = true := by
    rw [legalAccess_iff, hoff]
    omega
  rw [step_of_served hx, serveInput, serveAccess_of_illegal (s := { s with inputs := rest }) hw hl]
  rfl

/-- Settles O9: the eight rows, each with the mask of its register. -/
theorem formatRegisterReads : Obligations.FormatRegisterReads :=
  ⟨readsAs_readInstr .srcCfg fun _ => rfl, readsAs_readInstr .srcMaxRG fun _ => rfl,
    readsAs_readInstr .srcMaxB fun _ => rfl, readsAs_readInstr .srcShift fun _ => rfl,
    readsAs_readInstr .dstCfg fun _ => rfl, readsAs_readInstr .dstMaxRG fun _ => rfl,
    readsAs_readInstr .dstMaxB fun _ => rfl, readsAs_readInstr .dstShift fun _ => rfl⟩

/-- Settles O10: the nine rows; LEN and the addresses have no reserved bits. -/
theorem argumentAndControlRegisterReads : Obligations.ArgumentAndControlRegisterReads :=
  ⟨readsAs_readInstr .bppp fun _ => rfl, readsAs_readInstr .len readReg_len,
    readsAs_readInstr .srcAddr readReg_srcAddr, readsAs_readInstr .dstAddr readReg_dstAddr,
    readsAs_readInstr .ctrl fun _ => rfl, readsAs_readInstr .irqEn fun _ => rfl,
    readsAs_readInstr .pixelsDone fun _ => rfl, readsAs_readInstr .faultAddr fun _ => rfl,
    readsAs_readInstr .id fun _ => rfl⟩

/-- Settles O12: the eight rows; the two MAX_RG registers have no reserved bits. -/
theorem formatRegisterWrites : Obligations.FormatRegisterWrites :=
  ⟨writesAs_writeInstr (r := .srcCfg) nofun fun _ _ => rfl,
    writesAs_writeInstr (r := .srcMaxRG) nofun writeReg_srcMaxRG,
    writesAs_writeInstr (r := .srcMaxB) nofun fun _ _ => rfl,
    writesAs_writeInstr (r := .srcShift) nofun fun _ _ => rfl,
    writesAs_writeInstr (r := .dstCfg) nofun fun _ _ => rfl,
    writesAs_writeInstr (r := .dstMaxRG) nofun writeReg_dstMaxRG,
    writesAs_writeInstr (r := .dstMaxB) nofun fun _ _ => rfl,
    writesAs_writeInstr (r := .dstShift) nofun fun _ _ => rfl⟩

/-- Settles O13: the five rows; LEN and the addresses have no reserved bits. -/
theorem argumentAndIrqEnableWrites : Obligations.ArgumentAndIrqEnableWrites :=
  ⟨writesAs_writeInstr (r := .bppp) nofun fun _ _ => rfl,
    writesAs_writeInstr (r := .len) nofun writeReg_len,
    writesAs_writeInstr (r := .srcAddr) nofun writeReg_srcAddr,
    writesAs_writeInstr (r := .dstAddr) nofun writeReg_dstAddr,
    writesAs_writeInstr (r := .irqEn) nofun fun _ _ => rfl⟩

/-- Settles O14: the writes of the read-only registers, CTRL_NOP, and the two reserved rows. -/
theorem readOnlyAndReservedAccessesChangeNothing :
    Obligations.ReadOnlyAndReservedAccessesChangeNothing :=
  ⟨writesAs_writeInstr (r := .status) nofun fun _ _ => rfl,
    writesAs_writeInstr (r := .pixelsDone) nofun fun _ _ => rfl,
    writesAs_writeInstr (r := .faultAddr) nofun fun _ _ => rfl,
    writesAs_writeInstr (r := .id) nofun fun _ _ => rfl,
    Sys2Proof.commandRow_ctrlCommand false false, fun _ _ => rfl,
    fun _ hlow halign => decode_of_reservedOffset (reservedOffset_of_le hlow halign),
    fun _ _ => rfl, fun _ _ _ => rfl⟩

end

section
/-! Proofs of the family 40_host_ops.md, part 2: the commands START where it is ignored (O20), CLEAR (O21) and CLEAR
with START (O22). -/

open Sys2Proof.Spec

namespace Sys2Proof.Machine

/-! ### The commands as operations -/

theorem exec_ctrlStart (r : BitVec 30) (s : State) :
    exec (.ctrlStart r) s = .next (respond .done (commandStart s)) := rfl

theorem exec_ctrlClear (r : BitVec 30) (s : State) :
    exec (.ctrlClear r) s = .next (respond .done (commandClear s)) := rfl

theorem exec_ctrlClearStart (r : BitVec 30) (s : State) :
    exec (.ctrlClearStart r) s = .next (respond .done (commandStart (commandClear s))) := rfl

/-! ### START (40_host_ops.md R137) -/

theorem commandStart_of_ignored {s : State} (h : s.engine = .busy ∨ s.engine = .aborted) :
    commandStart s = s := by
  refine if_neg ?_
  rcases h with h | h <;> simp [h]

/-- START does not look at the last answer. -/
theorem commandStart_respond (r : Response) (s : State) :
    commandStart (respond r s) = respond r (commandStart s) := by
  have hcheck : startCheck (respond r s) = startCheck s := rfl
  simp only [commandStart, startSequence, respond_engine, hcheck]
  split
  · cases startCheck s <;> rfl
  · rfl

/-- A START in IDLE or DONE whose checks all pass begins the conversion (42_sequencer.md R171, R172). -/
theorem respond_commandStart_of_accepted {s : State} (he : s.engine = .idle ∨ s.engine = .done)
    (ha : StartAccepted s) : respond .done (commandStart s) = started s := by
  rw [commandStart, if_pos he, startSequence, (startCheck_eq_none s).mpr ha]
  rfl

/-! ### CLEAR (40_host_ops.md R138) -/

theorem commandClear_of_ended {s : State} (h : s.engine = .done ∨ s.engine = .aborted) :
    commandClear s = clearRecord s :=
  if_pos h

theorem commandClear_of_ignored {s : State} (h : s.engine = .idle ∨ s.engine = .busy) :
    commandClear s = s := by
  refine if_neg ?_
  rcases h with h | h <;> simp [h]

theorem commandClear_idle_of_not_busy {s : State} (h : s.engine ≠ .busy) :
    (commandClear s).engine = .idle := by
  rcases engine_commandClear s with ⟨he, hc⟩ | ⟨-, hc⟩
  · exact hc.trans (he.resolve_right h)
  · exact hc

/-- CLEAR leaves the arguments of a conversion, so the checks of START stand. -/
theorem startAccepted_commandClear {s : State} (h : StartAccepted s) :
    StartAccepted (commandClear s) := by
  rcases commandClear_cases s with ⟨-, e⟩ | ⟨-, e⟩ <;> rw [e] <;> exact h

/-- A START overwrites all that CLEAR writes. -/
theorem started_commandClear (s : State) : started (commandClear s) = started s := by
  rcases commandClear_cases s with ⟨-, e⟩ | ⟨-, e⟩ <;> rw [e]
  rfl

/-- The interrupt is of DONE and ABORTED alone (10_state.md R47). -/
theorem irqLevel_of_idle {s : State} (h : s.engine = .idle) : irqLevel s = false := by
  simp [irqLevel, h]

end Sys2Proof.Machine

open Sys2Proof.Machine

/-- Settles O20: START moves the block in IDLE and DONE only. -/
theorem startIsIgnoredWhenBusyOrAborted : Obligations.StartIsIgnoredWhenBusyOrAborted := by
  intro r s h
  rw [exec_ctrlStart, commandStart_of_ignored h]
  rfl

/-- Settles O21, for the states that CLEAR leaves and those in which it is ignored. -/
theorem clearReturnsDoneAndAbortedToIdle : Obligations.ClearReturnsDoneAndAbortedToIdle := by
  refine ⟨Sys2Proof.commandRow_ctrlCommand true false, fun r s => ⟨fun h => ?_, fun h => ?_⟩⟩ <;>
    rw [exec_ctrlClear]
  · rw [commandClear_of_ended h]
    refine ⟨rfl, fun t ht => ?_⟩
    cases ht
    exact irqLevel_of_idle rfl
  · rw [commandClear_of_ignored h]
    rfl

/-- Settles O22: START does not see the answer of CLEAR, and an accepted START overwrites what CLEAR wrote. -/
theorem clearStartIsClearThenStart : Obligations.ClearStartIsClearThenStart := by
  refine ⟨Sys2Proof.commandRow_ctrlCommand true true, fun r s =>
    ⟨⟨_, exec_ctrlClear r s, ?_⟩, fun hb ha => ?_, fun hb => ?_⟩⟩ <;> rw [exec_ctrlClearStart]
  · rw [exec_ctrlStart, commandStart_respond]
    rfl
  · rw [respond_commandStart_of_accepted (.inl (commandClear_idle_of_not_busy hb))
      (startAccepted_commandClear ha), started_commandClear]
  · rw [commandClear_of_busy hb, commandStart_of_busy hb]
    rfl

end

section
/-! Proofs of the family 41_datapath.md, part 1: EXTRACT (O23), and RESCALE with the widths of POPCOUNT (O24, O25). -/

namespace Sys2Proof.Machine

/-! ### EXTRACT (41_datapath.md R151) -/

theorem getLsbD_extractField (px : Word) (sh : Byte) (m : BitVec 16) (k : Nat) :
    (extractField px sh m).getLsbD k = (px.getLsbD (sh.toNat + k) && m.getLsbD k) := by
  rw [extractField, BitVec.getLsbD_and, BitVec.getLsbD_ushiftRight, BitVec.getLsbD_setWidth]
  by_cases hk : k < 32
  · simp [hk]
  · simp [BitVec.getLsbD_of_ge m k (by omega)]

theorem extractField_of_shift_ge {sh : Byte} (h : 32 ≤ sh.toNat) (px : Word) (m : BitVec 16) :
    extractField px sh m = 0 := by
  rw [extractField, BitVec.ushiftRight_eq_zero h]
  exact BitVec.zero_and

/-- A field is no wider than its max. -/
theorem toNat_extractField_lt (px : Word) (sh : Byte) (m : BitVec 16) :
    (extractField px sh m).toNat < 2 ^ 16 := by
  calc (extractField px sh m).toNat
      ≤ (m.setWidth 32).toNat := by rw [extractField, BitVec.toNat_and]; exact Nat.and_le_right
    _ = m.toNat := BitVec.toNat_setWidth_of_le (by decide)
    _ < 2 ^ 16 := m.isLt

/-! ### POPCOUNT (41_datapath.md R152) -/

theorem popcount_le (m : BitVec 16) : popcount m ≤ 16 := by
  simpa [popcount] using List.countP_le_length (p := fun k => m.getLsbD k) (l := List.range 16)

/-- Five bits hold every width. -/
theorem toNat_channelWidth (m : BitVec 16) : (channelWidth m).toNat = popcount m := by
  have := popcount_le m
  rw [channelWidth, BitVec.toNat_ofNat, Nat.mod_eq_of_lt (by omega)]

theorem toNat_channelWidth_le (m : BitVec 16) : (channelWidth m).toNat ≤ 16 :=
  (toNat_channelWidth m).trans_le (popcount_le m)

theorem countP_lt_range (n w : Nat) : (List.range w).countP (fun k => decide (k < n)) = min n w := by
  induction w with
  | zero => simp
  | succ w ih =>
    rw [List.range_succ, List.countP_append, ih, List.countP_singleton]
    simp only [decide_eq_true_eq]
    split <;> omega

/-- The width of a max of mask form (41_datapath.md R162). -/
theorem toNat_channelWidth_mask {n : Nat} (h : n ≤ 16) :
    (channelWidth (BitVec.ofNat 16 (2 ^ n - 1))).toNat = n := by
  have hbit : ∀ k ∈ List.range 16,
      (BitVec.ofNat 16 (2 ^ n - 1)).getLsbD k = true ↔ decide (k < n) = true := by
    intro k hk
    rw [BitVec.getLsbD_ofNat, Nat.testBit_two_pow_sub_one, decide_eq_true (List.mem_range.mp hk),
      Bool.true_and]
  rw [toNat_channelWidth, popcount, List.countP_congr hbit, countP_lt_range, Nat.min_eq_left h]

/-! ### RESCALE (41_datapath.md R153) -/

/-- The left shift of a field of at most 16 bits drops none of them (41_datapath.md R163). -/
theorem mul_two_pow_lt {v d : Nat} (hv : v < 2 ^ 16) (hd : d ≤ 16) : v * 2 ^ d < 2 ^ 32 :=
  calc v * 2 ^ d ≤ v * 2 ^ 16 := Nat.mul_le_mul_left v (Nat.pow_le_pow_right (by decide) hd)
    _ < 2 ^ 32 := by omega

/-- RESCALE is the exact quotient (41_datapath.md R153, R163). -/
theorem toNat_rescale {f : Word} {d : BitVec 5} (hf : f.toNat < 2 ^ 16) (hd : d.toNat ≤ 16)
    (s : BitVec 5) : (rescale f s d).toNat = f.toNat * 2 ^ d.toNat / 2 ^ s.toNat := by
  rw [rescale, BitVec.toNat_ushiftRight, BitVec.toNat_shiftLeft, Nat.shiftRight_eq_div_pow,
    Nat.shiftLeft_eq, Nat.mod_eq_of_lt (mul_two_pow_lt hf hd)]

/-- To a width that is no less, RESCALE pads with zeros. -/
theorem rescale_of_le {f : Word} {s d : BitVec 5} (hf : f.toNat < 2 ^ 16) (hd : d.toNat ≤ 16)
    (h : s.toNat ≤ d.toNat) : rescale f s d = f <<< (d.toNat - s.toNat) := by
  apply BitVec.eq_of_toNat_eq
  have hlt : f.toNat * 2 ^ (d.toNat - s.toNat) < 2 ^ 32 := mul_two_pow_lt hf (by omega)
  calc (rescale f s d).toNat
      = f.toNat * 2 ^ d.toNat / 2 ^ s.toNat := toNat_rescale hf hd s
    _ = f.toNat * 2 ^ (d.toNat - s.toNat) := by
        rw [Nat.mul_div_assoc _ (pow_dvd_pow 2 h), Nat.pow_div h (by decide)]
    _ = (f <<< (d.toNat - s.toNat)).toNat := by
        rw [BitVec.toNat_shiftLeft, Nat.shiftLeft_eq, Nat.mod_eq_of_lt hlt]

/-- To a lesser width, RESCALE drops the low bits. -/
theorem rescale_of_ge {f : Word} {s d : BitVec 5} (hf : f.toNat < 2 ^ 16) (hd : d.toNat ≤ 16)
    (h : d.toNat ≤ s.toNat) : rescale f s d = f >>> (s.toNat - d.toNat) := by
  apply BitVec.eq_of_toNat_eq
  rw [toNat_rescale hf hd, BitVec.toNat_ushiftRight, Nat.shiftRight_eq_div_pow,
    ← Nat.sub_add_cancel h, Nat.pow_add, Nat.mul_div_mul_right _ _ (Nat.two_pow_pos _),
    Nat.add_sub_cancel]

end Sys2Proof.Machine

open Sys2Proof.Machine

/-- Settles O23. -/
theorem extractTakesTheBitsOfTheMax : Obligations.ExtractTakesTheBitsOfTheMax := fun px sh m k =>
  ⟨getLsbD_extractField px sh m k, fun h => extractField_of_shift_ge h px m,
    Nat.le_of_lt_succ (toNat_extractField_lt px sh m)⟩

/-- Settles O24: a field has at most 16 bits, and so has a width's shift. -/
theorem rescaleNeverOverflows : Obligations.RescaleNeverOverflows := fun px sh m dm =>
  have hf := toNat_extractField_lt px sh m
  have hd := toNat_channelWidth_le dm
  ⟨mul_two_pow_lt hf hd, toNat_rescale hf hd _⟩

/-- Settles O25: the widths are `n` and `m`, and RESCALE pads or drops by their difference. -/
theorem rescaleIsExactForMaskMaxes : Obligations.RescaleIsExactForMaskMaxes := by
  intro n m v hn hm hv
  have hf : (BitVec.ofNat 32 v).toNat < 2 ^ 16 :=
    calc (BitVec.ofNat 32 v).toNat ≤ v := by rw [BitVec.toNat_ofNat]; exact Nat.mod_le _ _
      _ < 2 ^ n := hv
      _ ≤ 2 ^ 16 := Nat.pow_le_pow_right (by decide) hn
  have hs := toNat_channelWidth_mask hn
  have hd := toNat_channelWidth_mask hm
  split
  · rw [rescale_of_le hf (by omega) (by omega), hs, hd]
  · rw [rescale_of_ge hf (by omega) (by omega), hs, hd]

end

section
/-! Proofs of the family 41_datapath.md, part 2: the channels of a pixel: their independence (O26), the round trip
(O27) and the shift normaliser (O28). -/

namespace Sys2Proof.Machine

/-! ### The source field of a channel (41_datapath.md R162) -/

/-- The bits of a pixel that a channel's max at its shift names. -/
def channelField (m : BitVec 16) (sh : Byte) : Word := m.setWidth 32 <<< sh.toNat

/-- EXTRACT sees the pixel through the channel's field only. -/
theorem extractField_eq_channelField (px : Word) (sh : Byte) (m : BitVec 16) :
    extractField px sh m = (px &&& channelField m sh) >>> sh.toNat := by
  refine BitVec.eq_of_getLsbD_eq fun k hk => ?_
  rw [getLsbD_extractField, BitVec.getLsbD_ushiftRight, BitVec.getLsbD_and, channelField,
    BitVec.getLsbD_shiftLeft, BitVec.getLsbD_setWidth]
  by_cases hlt : sh.toNat + k < 32
  · simp [hlt, hk]
  · simp [BitVec.getLsbD_of_ge px _ (Nat.le_of_not_lt hlt)]

theorem extractField_congr {px px' : Word} {sh : Byte} {m : BitVec 16}
    (h : px &&& channelField m sh = px' &&& channelField m sh) :
    extractField px sh m = extractField px' sh m := by
  rw [extractField_eq_channelField, extractField_eq_channelField, h]

/-- Words that agree outside `c` agree on every field that shares no bit with `c`. -/
theorem and_eq_of_agree_outside {x y c f : Word} (h : x &&& ~~~c = y &&& ~~~c) (hcf : c &&& f = 0) :
    x &&& f = y &&& f := by
  have hf : f = ~~~c &&& f :=
    calc f = (c ||| ~~~c) &&& f := by rw [BitVec.or_not_self, BitVec.allOnes_and]
      _ = 0#32 ||| ~~~c &&& f := by rw [BitVec.and_or_distrib_right, hcf]; rfl
      _ = ~~~c &&& f := BitVec.zero_or
  rw [hf, ← BitVec.and_assoc, h, BitVec.and_assoc]

theorem extractField_of_agree_outside {px px' c : Word} {m : BitVec 16} {sh : Byte}
    (h : px &&& ~~~c = px' &&& ~~~c) (hc : c &&& channelField m sh = 0) :
    extractField px sh m = extractField px' sh m :=
  extractField_congr (and_eq_of_agree_outside h hc)

/-- A field put back at the shift it was taken from. -/
theorem position_extractField (px : Word) (sh : Byte) (m : BitVec 16) :
    position (extractField px sh m) sh = px &&& channelField m sh := by
  refine BitVec.eq_of_getLsbD_eq fun k hk => ?_
  rw [position, BitVec.getLsbD_shiftLeft, getLsbD_extractField, BitVec.getLsbD_and, channelField,
    BitVec.getLsbD_shiftLeft, BitVec.getLsbD_setWidth]
  by_cases hle : sh.toNat ≤ k
  · simp [hk, hle, Nat.not_lt.mpr hle, show k - sh.toNat < 32 by omega]
  · simp [Nat.lt_of_not_le hle]

/-- A lane whose two widths are the same leaves the field as it was extracted. -/
theorem laneField_of_same_width (px : Word) (sh : Byte) (m : BitVec 16) :
    laneField px sh m (channelWidth m) (channelWidth m) = extractField px sh m := by
  rw [laneField, rescale_of_le (toNat_extractField_lt px sh m) (toNat_channelWidth_le m) le_rfl,
    Nat.sub_self, BitVec.shiftLeft_zero]

/-! ### NORMALIZE (41_datapath.md R154) -/

theorem toNat_min3 (a b c : Byte) : (min3 a b c).toNat = min a.toNat (min b.toNat c.toNat) := by
  have ha : a.toNat < 2 ^ 8 := a.isLt
  rw [min3, BitVec.toNat_ofNat, Nat.mod_eq_of_lt (by omega)]

theorem normalises_iff (b : Byte) (f : PixelFormat) :
    normalises b f = true ↔ b.toNat = 3 ∧ f.bpp.toNat = 32 ∧ f.depth.toNat ≤ 24 := by
  simp [normalises, ← BitVec.toNat_inj, and_assoc]

/-- A subtraction that does not wrap. -/
theorem toNat_sub_add_cancel {a m : Byte} (h : m.toNat ≤ a.toNat) : (a - m).toNat + m.toNat = a.toNat := by
  rw [BitVec.toNat_sub_of_le (BitVec.le_def.mpr h), Nat.sub_add_cancel h]

end Sys2Proof.Machine

open Sys2Proof.Machine

/-- Settles O26: a positioned value depends on the pixel through its channel's field only. -/
theorem channelsAreIndependent : Obligations.ChannelsAreIndependent := by
  intro L px px' field red green blue
  refine ⟨fun h => ⟨fun hc => ?_, fun hc => ?_⟩, fun h => ⟨fun hc => ?_, fun hc => ?_⟩,
    fun h => ⟨fun hc => ?_, fun hc => ?_⟩⟩ <;>
    simp only [positioned, laneField, extractField_of_agree_outside h hc]

/-- Settles O27: each lane puts its field back where it was, and the composed word is their union. -/
theorem roundTripKeepsTheChannelFields : Obligations.RoundTripKeepsTheChannelFields := by
  intro L px hmax hsrc hdst hshift
  simp only [composedPixel, compose, positioned, hsrc, hdst, hmax, hshift, PerChannel.map,
    laneField_of_same_width, position_extractField, channelField, BitVec.and_or_distrib_left]

/-- Settles O28: the least shift is at most each shift, so no subtraction wraps. -/
theorem normaliserSubtractsTheLeastShift : Obligations.NormaliserSubtractsTheLeastShift := by
  intro b f e m
  have hm : (min3 f.shift.r f.shift.g f.shift.b).toNat = m := toNat_min3 _ _ _
  split
  case isTrue h =>
    have he : e = f.shift.map fun c => c - min3 f.shift.r f.shift.g f.shift.b :=
      if_pos ((normalises_iff b f).mpr h)
    rw [he, ← hm]
    refine ⟨toNat_sub_add_cancel ?_, toNat_sub_add_cancel ?_, toNat_sub_add_cancel ?_⟩ <;> omega
  case isFalse h => exact if_neg (mt (normalises_iff b f).mp h)

end

section
/-! Proofs of the family 41_datapath.md, part 3: the packed pixel (O29) and PACK_INVALID (O33). -/

open Sys2Proof.Spec

namespace Sys2Proof.Machine

/-- `cpx` of 41_datapath.md R161 is the composed word of the model. -/
theorem composedPixel_eq_cpx (L : Latched) (px : Word) : composedPixel L px = cpx L px := rfl

theorem packBytes_one (e : Bool) (c : Word) : packBytes 1 e c = packOne e c := rfl

theorem packBytes_two (e : Bool) (c : Word) : packBytes 2 e c = packTwo e c := rfl

theorem packBytes_three (e : Bool) (c : Word) : packBytes 3 e c = packThree e c := rfl

theorem exec_packInvalid (b : Byte) (s : State) :
    exec (.packInvalid b) s = .next (raiseAbort .bpppInvalid 0 s) := rfl

/-- A width that selects PACK_INVALID is none of the packers'. -/
theorem not_packerWidth_of_decode {b c : Byte} (h : decode (.pack b) = .ok (.packInvalid c)) :
    ¬ PackerWidth b := by
  rintro (rfl | rfl | rfl) <;> cases h

/-- With formats that pass, the first check that a width without a packer fails is its own. -/
theorem formatCheck_of_not_packerWidth {src dst : PixelFormat} {b : Byte}
    (hst : src.trueColour = true) (hsb : src.bpp = 32) (hsd : src.depth.toNat ≤ 32)
    (hdt : dst.trueColour = true) (hdb : dst.bpp.toNat ≤ 32) (hdd : dst.depth.toNat ≤ 24)
    (hb : ¬ PackerWidth b) : formatCheck src dst b = some .bpppInvalid := by
  simp only [formatCheck, hst, hsb, hdt, hb, Nat.not_lt.mpr hsd, Nat.not_lt.mpr hdb,
    Nat.not_lt.mpr hdd, ne_eq, not_true_eq_false, not_false_eq_true, Bool.true_eq_false,
    if_false, if_true]

/-- A START whose check fails takes the abort of that check, with PIXELS_DONE 0 (42_sequencer.md R171). -/
theorem commandStart_of_startCheck {s : State} {c : Cause} {a : Addr}
    (he : s.engine = .idle ∨ s.engine = .done) (h : startCheck s = some (c, a)) :
    commandStart s = raiseAbort c a { s with pixelsDone := 0 } := by
  rw [commandStart, if_pos he, startSequence, h]

end Sys2Proof.Machine

open Sys2Proof.Machine

/-- Settles O29, for each of the three packers. -/
theorem convertPixelIsTheComposition : Obligations.ConvertPixelIsTheComposition := by
  intro L px c b0 b1 b2
  refine ⟨fun h => ?_, fun h => ?_, fun h => ?_⟩ <;> rw [convertPixel, h, composedPixel_eq_cpx]
  · exact packBytes_one _ _
  · exact packBytes_two _ _
  · exact packBytes_three _ _

/-- Settles O33: the width's check is the first that fails, and START takes the abort PACK_INVALID raises. -/
theorem packInvalidIsTheWidthAbort : Obligations.PackInvalidIsTheWidthAbort := by
  refine ⟨exec_packInvalid, fun r s b he hd hst hsb hsd hdt hdb hdd => ?_⟩
  have hformat : formatCheck (srcFormat s) (dstFormat s) (widthValue s) = some .bpppInvalid :=
    formatCheck_of_not_packerWidth hst hsb hsd hdt hdb hdd (not_packerWidth_of_decode hd)
  have hcheck : startCheck s = some (.bpppInvalid, 0) := by rw [startCheck, hformat]
  rw [exec_ctrlStart, commandStart_of_startCheck he hcheck, exec_packInvalid]
  rfl

end

section
/-! Proofs of the family 42_sequencer.md, part 1: the START sequence: an accepted START (O16), its checks (O19) and
the latch (O17). -/

open Sys2Proof.Spec

namespace Sys2Proof.Machine

/-! ### The checks of START (42_sequencer.md R171) -/

/-- The widths that have a packer are those from 1 to 3 (30_encoding.md R81). -/
theorem packerWidth_iff_toNat (b : Byte) : PackerWidth b ↔ 1 ≤ b.toNat ∧ b.toNat ≤ 3 := by
  unfold PackerWidth
  bv_omega

/-- The buffer checks pass exactly on buffers the contract accepts; two ranges share a byte when each begins
before the other ends. -/
theorem buffersAccepted_iff (S D : Addr) (n : Word) (b : Byte) :
    BuffersAccepted S D n b ↔
      (0 < n.toNat → S.toNat % 4 = 0) ∧ (0 < n.toNat → S.toNat + 4 * n.toNat ≤ 2 ^ 32) ∧
      (0 < n.toNat → D.toNat + b.toNat * n.toNat ≤ 2 ^ 32) ∧
      (0 < n.toNat → ¬ (S.toNat < D.toNat + b.toNat * n.toNat ∧ D.toNat < S.toNat + 4 * n.toNat)) := by
  have hlen : n ≠ 0 ↔ 0 < n.toNat := by
    rw [Nat.pos_iff_ne_zero, ne_eq, ne_eq, ← BitVec.toNat_inj]
    rfl
  simp only [BuffersAccepted, hlen]
  omega

/-- None of the eleven checks fails exactly when the START is accepted. -/
theorem checks_pass_iff (s : State) : (∀ x ∈ checks s, x.1 = false) ↔ StartAccepted s := by
  have hwidth : (widthValue s = 1 ∨ widthValue s = 2 ∨ widthValue s = 3) ↔
      1 ≤ (widthValue s).toNat ∧ (widthValue s).toNat ≤ 3 := packerWidth_iff_toNat _
  have hbpp : (s.srcCfg.extractLsb' 0 8).toNat = 32 ↔ s.srcCfg.extractLsb' 0 8 = 32 :=
    BitVec.toNat_inj (y := 32#8)
  rw [StartAccepted, buffersAccepted_iff, FormatsAccepted, hwidth]
  simp only [checks, List.forall_mem_cons, List.not_mem_nil, false_imp_iff, implies_true,
    Bool.and_eq_false_imp, Bool.not_eq_false', decide_eq_false_iff_not, decide_eq_true_eq, not_not, not_lt,
    gt_iff_lt, ne_eq, and_true, and_assoc, hbpp, srcFormat, dstFormat, formatOf, widthValue]

/-! ### The latch (42_sequencer.md R172) -/

/-- A width is the number of bits set in the 16 bits of the register that hold the max (41_datapath.md R152). -/
theorem toNat_channelWidth_extractLsb' (w : Word) (lo : Nat) :
    (channelWidth (w.extractLsb' lo 16)).toNat =
      ((List.range 16).filter fun k => w.getLsbD (lo + k)).length := by
  rw [toNat_channelWidth, popcount, List.countP_eq_length_filter]
  refine congrArg List.length (List.filter_congr fun k hk => ?_)
  simp [List.mem_range.mp hk]

end Sys2Proof.Machine

open Sys2Proof.Machine

/-- Settles O16: no check fails, so START latches and begins. -/
theorem acceptedStartLatchesAndBegins : Obligations.AcceptedStartLatchesAndBegins := by
  intro r s he ha
  rw [exec_ctrlStart, respond_commandStart_of_accepted he ha]

/-- Settles O17: the fields stand at their bits by definition, and each width counts the bits of its max. -/
theorem latchHoldsTheRegisterFieldsAndWidths : Obligations.LatchHoldsTheRegisterFieldsAndWidths := by
  intro s L ones
  exact ⟨rfl, rfl, rfl, rfl, rfl, rfl, rfl, rfl, rfl, rfl, rfl, rfl, rfl, rfl, rfl, rfl,
    toNat_channelWidth_extractLsb' _ 0, toNat_channelWidth_extractLsb' _ 16, toNat_channelWidth_extractLsb' _ 0,
    toNat_channelWidth_extractLsb' _ 0, toNat_channelWidth_extractLsb' _ 16, toNat_channelWidth_extractLsb' _ 0, rfl⟩

/-- Settles O19: the checks that none fails are the contract of an accepted START. -/
theorem startWithNoFailingCheckIsAccepted : Obligations.StartWithNoFailingCheckIsAccepted := fun s =>
  ⟨checks_pass_iff s, fun he hpass r => acceptedStartLatchesAndBegins r s he ((checks_pass_iff s).mp hpass)⟩

end

section
/-! Proofs of the family 42_sequencer.md, part 2: the engine's steps: the read step with each packer (O31) and its bus
error (O32), the write step (O35) and its bus error (O36), the completion (O37), and a conversion of no pixels (O38). -/

open Sys2Proof.Spec

namespace Sys2Proof.Machine

/-! ### The read step (42_sequencer.md R174, R178) -/

theorem exec_pack1 (s : State) : exec .pack1 s = .next (readStep packOne s) := rfl

theorem exec_pack2 (s : State) : exec .pack2 s = .next (readStep packTwo s) := rfl

theorem exec_pack3 (s : State) : exec .pack3 s = .next (readStep packThree s) := rfl

/-- An enabled read step of a word that completes holds the packed bytes of the composed word. -/
theorem readStep_of_wordOk {s : State} (h : readEnabled s) (hok : wordOk s.plat s.sp = true)
    (pack : Bool → Word → List Byte) :
    readStep pack s =
      { s with
        out := pack s.lat.dst.bigEndian (composedPixel s.lat (wordAt s s.sp))
        byteIdx := 0
        phase := .write } := by
  rw [readStep, if_pos h, memReadWord_eq_some.mpr ⟨hok, rfl⟩]

/-- An enabled read step of a word that fails is the abort. -/
theorem readStep_of_not_wordOk {s : State} (h : readEnabled s) (hok : wordOk s.plat s.sp = false)
    (pack : Bool → Word → List Byte) : readStep pack s = raiseAbort .busRead s.sp s := by
  rcases readStep_cases pack s with ⟨hn, -⟩ | ⟨-, -, e⟩ | ⟨-, hok', -⟩
  · exact absurd h hn
  · exact e
  · exact absurd (hok'.symm.trans hok) nofun

/-- A turn that reads a word that completes holds the packed bytes of the pixel. -/
theorem engineTurn_of_wordOk {s : State} (hb : s.engine = .busy) (hp : s.phase = .read)
    (hlt : s.pix.toNat < s.lat.len.toNat) (hw : PackerWidth s.lat.bppp) (hok : wordOk s.plat s.sp = true) :
    (engineTurn s).outcome =
      .next { s with out := convertPixel s.lat (wordAt s s.sp), byteIdx := 0, phase := .write } := by
  rw [engineTurn_of_reading hp hlt, Fetched.outcome, exec_decodePack_of_packer hw,
    readStep_of_wordOk ⟨hb, hp, hlt⟩ hok, convertPixel]

/-! ### The write step (42_sequencer.md R175, R176) -/

/-- A turn that writes a byte of a pixel no race has left free stores the byte held. -/
theorem engineTurn_of_memOk {s : State} {v : Byte} (hp : s.phase = .write)
    (hv : s.out[s.byteIdx.toNat]? = some v) (hok : memOk s.plat s.dp = true) (hr : pixelRaced s = false) :
    (engineTurn s).outcome = .next (afterWrite (storeByte s.dp v s)) := by
  have hwrite : (engineTurn s).outcome = writeStep s := by simp [engineTurn, hp, Fetched.outcome]
  have hstore : storeHeld v s = storeByte s.dp v s := by simp [storeHeld, hr]
  rw [hwrite, writeStep_of_memOk hv hok, hstore]

theorem afterWrite_of_not_last {s : State} (h : (s.byteIdx + 1).toNat ≠ s.lat.bppp.toNat) :
    afterWrite s = { s with dp := s.dp + 1, byteIdx := s.byteIdx + 1 } :=
  if_neg h

theorem afterWrite_of_last {s : State} (h : (s.byteIdx + 1).toNat = s.lat.bppp.toNat) :
    afterWrite s =
      { s with
        dp := s.dp + 1, byteIdx := 0, phase := .read
        pix := s.pix + 1, pixelsDone := s.pix + 1, sp := s.sp + 4 } :=
  if_pos h

/-! ### The completion (42_sequencer.md R177) -/

theorem engineTurn_of_complete {s : State} (hp : s.phase = .read) (hx : s.pix = s.lat.len) :
    (engineTurn s).outcome = .next (completeStep s) := by
  simp [engineTurn, hp, hx, Fetched.outcome]

/-- In DONE the interrupt is that of its enable (10_state.md R47). -/
theorem irqLevel_of_done {s : State} (h : s.engine = .done) : irqLevel s = s.irqEn.getLsbD 0 := by
  simp [irqLevel, h, doneIE]

/-- While BUSY with nothing pending a step is the engine's turn. -/
theorem step_of_alone {s : State} (hb : s.engine = .busy) (hi : s.inputs = []) :
    step s = (engineTurn s).outcome :=
  (step_of_inputs_nil hi).trans (if_pos hb)

/-- With no pixel left and nothing pending the next step is the completion. -/
theorem step_of_complete {s : State} (hb : s.engine = .busy) (hi : s.inputs = []) (hp : s.phase = .read)
    (hx : s.pix = s.lat.len) : step s = .next { s with engine := .done } :=
  (step_of_alone hb hi).trans (engineTurn_of_complete hp hx)

end Sys2Proof.Machine

open Sys2Proof.Machine

/-- Settles O31, for each of the three packers. -/
theorem packModesHoldThePackedBytes : Obligations.PackModesHoldThePackedBytes := by
  intro s hb hp hlt h0 h1 h2 h3 c b0 b1 b2 e
  have hen : readEnabled s := ⟨hb, hp, hlt⟩
  have hok : wordOk s.plat s.sp = true := by
    simp only [wordOk, h0, h1, h2, h3, Bool.and_self]
  refine ⟨?_, ?_, ?_⟩
  · rw [exec_pack1, readStep_of_wordOk hen hok]
    rfl
  · rw [exec_pack2, readStep_of_wordOk hen hok]
    rfl
  · rw [exec_pack3, readStep_of_wordOk hen hok]
    rfl

/-- Settles O32: a byte that fails makes the word unreadable, whichever packer is selected. -/
theorem readBusErrorAborts : Obligations.ReadBusErrorAborts := by
  intro s hb hp hlt hfail i hi
  have hen : readEnabled s := ⟨hb, hp, hlt⟩
  have hok : wordOk s.plat s.sp = false := by
    rcases hfail with h | h | h | h <;>
      simp only [wordOk, h, Bool.and_false, Bool.false_and]
  rcases hi with rfl | rfl | rfl
  · rw [exec_pack1, readStep_of_not_wordOk hen hok]
    rfl
  · rw [exec_pack2, readStep_of_not_wordOk hen hok]
    rfl
  · rw [exec_pack3, readStep_of_not_wordOk hen hok]
    rfl

/-- Settles O35: the byte held is stored at `dp`, and what follows depends on whether it is the pixel's last. -/
theorem writeStepStoresOneByte : Obligations.WriteStepStoresOneByte := by
  intro s v rest hb hp hm hwf hr hv hok
  have hstep : step s = .next (afterWrite (storeByte s.dp v { s with inputs := rest })) := by
    rw [step_of_engineMoves hb hm]
    exact engineTurn_of_memOk (s := { s with inputs := rest }) hp hv hok hr
  refine ⟨s.mem.set s.dp.toNat v, byteAt_storeByte_self hwf,
    fun x hx => byteAt_storeByte_other s v hx, fun hj => ?_, fun hj => ?_⟩
  · rw [hstep, afterWrite_of_not_last]
    · rfl
    · exact hj
  · rw [hstep, afterWrite_of_last]
    · rfl
    · exact hj

/-- Settles O36: a byte is held, and its write fails. -/
theorem writeBusErrorAborts : Obligations.WriteBusErrorAborts := by
  intro s rest hb hp hm hj hok
  rw [step_of_engineMoves hb hm]
  exact engineTurn_of_not_memOk (s := { s with inputs := rest }) hp (List.getElem?_eq_getElem hj) hok

/-- Settles O37: no pixel is left, and DONE raises the interrupt where it is enabled. -/
theorem completionReachesDone : Obligations.CompletionReachesDone := by
  intro s rest hb hp hm hx
  rw [step_of_engineMoves hb hm]
  exact ⟨engineTurn_of_complete (s := { s with inputs := rest }) hp hx, irqLevel_of_done rfl⟩

/-- Settles O38: the buffer checks do not bind, and the first pixel is already past the last. -/
theorem zeroLengthTouchesNoMemory : Obligations.ZeroLengthTouchesNoMemory := by
  intro r s he hi hlen hf
  have ha : StartAccepted s := ⟨hf, fun hne => absurd hlen hne⟩
  have hstep : ∀ m p,
      step { started s with mem := m, plat := p } =
        .next { started s with engine := .done, mem := m, plat := p } :=
    fun _ _ => step_of_complete rfl hi rfl hlen.symm
  exact ⟨started s, acceptedStartLatchesAndBegins r s he ha, hstep s.mem s.plat, hstep⟩

end

section
/-! Proofs of the family 42_sequencer.md, part 3: whole conversions: one whose accesses complete (O39), and the bus
errors of a read (O40) and of a write (O41). -/

open Sys2Proof.Spec

namespace Sys2Proof.Machine

/-! ### Runs that stay BUSY -/

/-- A run of `n` steps from `u` to `t` that is BUSY before each of them. -/
def BusyRun (n : Nat) (u t : State) : Prop :=
  BusyBefore n u ∧ Sys2Proof.core.run n u = .next t

theorem BusyRun.refl (u : State) : BusyRun 0 u u := ⟨nofun, run_zero u⟩

theorem BusyRun.snoc {n : Nat} {u t v : State} (h : BusyRun n u t) (hb : t.engine = .busy)
    (hs : step t = .next v) : BusyRun (n + 1) u v := by
  obtain ⟨hbusy, hrun⟩ := h
  refine ⟨fun m hm => ?_, ?_⟩
  · rcases Nat.lt_succ_iff_lt_or_eq.mp hm with hlt | rfl
    · exact hbusy m hlt
    · exact ⟨t, hrun, hb⟩
  · rw [run_add hrun, run_succ_next hs, run_zero]

/-! ### The buffers of a conversion (42_sequencer.md R180) -/

/-- The buffers that the registers describe are accepted by START. -/
abbrev ArgumentsOk (s : State) : Prop := BuffersAccepted s.srcAddr s.dstAddr s.len (widthValue s)

theorem len_ne_zero_of_lt {n : Word} {k : Nat} (hk : k < n.toNat) : n ≠ 0 := by
  rintro rfl
  exact absurd hk (Nat.not_lt_zero k)

/-- A byte of the packed pixels has the address its place says, without a wrap. -/
theorem toNat_dstByteAddr {s : State} (ha : ArgumentsOk s) {k j : Nat} (hk : k < s.len.toNat)
    (hj : j < (widthValue s).toNat) :
    (dstByteAddr s k j).toNat = s.dstAddr.toNat + ((widthValue s).toNat * k + j) := by
  obtain ⟨-, -, hend, -⟩ := ha (len_ne_zero_of_lt hk)
  have hpix := pixel_end_le (b := (widthValue s).toNat) hk
  rw [dstByteAddr, BitVec.toNat_add, BitVec.toNat_ofNat]
  omega

/-- A byte of a source word has the address its place says, without a wrap. -/
theorem toNat_srcWordAddr_add {s : State} (ha : ArgumentsOk s) {k i : Nat} (hk : k < s.len.toNat) (hi : i < 4) :
    (srcWordAddr s k + BitVec.ofNat 32 i).toNat = s.srcAddr.toNat + (4 * k + i) := by
  obtain ⟨-, hend, -, -⟩ := ha (len_ne_zero_of_lt hk)
  simp only [srcWordAddr, BitVec.toNat_add, BitVec.toNat_ofNat]
  omega

/-- A word depends on the platform and on its four bytes. -/
theorem wordAt_congr {s t : State} {a : Addr} (hp : t.plat = s.plat)
    (h : ∀ i < 4, byteAt t (a + BitVec.ofNat 32 i) = byteAt s (a + BitVec.ofNat 32 i)) :
    wordAt t a = wordAt s a := by
  have h0 := h 0 (by decide)
  have h1 : byteAt t (a + 1) = byteAt s (a + 1) := h 1 (by decide)
  have h2 : byteAt t (a + 2) = byteAt s (a + 2) := h 2 (by decide)
  have h3 : byteAt t (a + 3) = byteAt s (a + 3) := h 3 (by decide)
  rw [BitVec.add_zero] at h0
  rw [wordAt, wordAt, hp, h0, h1, h2, h3]

/-! ### What a conversion has written -/

/-- Byte `j` of packed pixel `k` is one before the cursors. -/
abbrev Written (t : State) (k j : Nat) : Prop :=
  k < t.pix.toNat ∨ (k = t.pix.toNat ∧ j < t.byteIdx.toNat)

/-- How many bytes are before the cursors. -/
abbrev bytesWritten (t : State) : Nat := t.lat.bppp.toNat * t.pix.toNat + t.byteIdx.toNat

/-- The bytes before the cursors lie one after the other. -/
theorem Written.offset_lt {t : State} {k j : Nat} (h : Written t k j) (hj : j < t.lat.bppp.toNat) :
    t.lat.bppp.toNat * k + j < bytesWritten t := by
  rcases h with hk | ⟨rfl, hj'⟩
  · have := pixel_end_le (b := t.lat.bppp.toNat) hk
    simp only [bytesWritten]
    omega
  · exact Nat.add_lt_add_left hj' _

theorem BusyOk.toNat_pix_succ {t : State} (h : BusyOk t) (hp : t.phase = .write) :
    (t.pix + 1).toNat = t.pix.toNat + 1 := by
  have hlt := (h.writing hp).1
  have hlen := t.lat.len.isLt
  bv_omega

theorem BusyOk.toNat_byteIdx_succ {t : State} (h : BusyOk t) (hp : t.phase = .write) :
    (t.byteIdx + 1).toNat = t.byteIdx.toNat + 1 :=
  Sys2Proof.Machine.toNat_byteIdx_succ h.packer (h.writing hp).2.1

/-- A write step counts one byte more. -/
theorem bytesWritten_afterWrite {t : State} (h : BusyOk t) (hp : t.phase = .write) :
    bytesWritten (afterWrite t) = bytesWritten t + 1 := by
  have hidx := h.toNat_byteIdx_succ hp
  rcases afterWrite_cases t with ⟨-, e⟩ | ⟨hj, -⟩
  · rw [e]
    simp only [bytesWritten, hidx, Nat.add_assoc]
  · rw [afterWrite_of_last hj]
    simp only [bytesWritten, h.toNat_pix_succ hp, Nat.mul_succ]
    have h0 : (0 : BitVec 2).toNat = 0 := rfl
    omega

/-- The byte a write step adds to those written is the one at the cursors. -/
theorem written_of_written_afterWrite {t : State} (h : BusyOk t) (hp : t.phase = .write) {k j : Nat}
    (hj : j < t.lat.bppp.toNat) (hw : Written (afterWrite t) k j) :
    Written t k j ∨ (k = t.pix.toNat ∧ j = t.byteIdx.toNat) := by
  have hidx := h.toNat_byteIdx_succ hp
  rcases afterWrite_cases t with ⟨-, e⟩ | ⟨hlast, -⟩
  · rw [e] at hw
    simp only [Written, hidx] at hw ⊢
    omega
  · rw [afterWrite_of_last hlast] at hw
    have h0 : (0 : BitVec 2).toNat = 0 := rfl
    simp only [Written, h.toNat_pix_succ hp] at hw ⊢
    omega

/-! ### A conversion under way -/

/-- `t` is a state of the conversion that a START in `s` began: the bytes before the cursors are packed, and no
other byte of memory and no register that describes the conversion has changed. -/
structure Converting (s t : State) : Prop where
  engine : t.engine = .busy
  cursors : BusyOk t
  config : SameConfiguration s t
  record : t.cause = .none ∧ t.faultAddr = 0
  alone : t.inputs = [] ∧ t.raced = []
  memory : t.mem.wf = true
  held : t.phase = .write → t.out = convertPixel (latchedOf s) (wordAt s (srcWordAddr s t.pix.toNat))
  packed : ∀ k j, j < (widthValue s).toNat → Written t k j →
    some (byteAt t (dstByteAddr s k j)) = packedByte s k j
  untouched : ∀ x : Addr,
    (x.toNat < s.dstAddr.toNat ∨ s.dstAddr.toNat + bytesWritten t ≤ x.toNat) → byteAt t x = byteAt s x

/-- An accepted START with nothing else pending begins a conversion. -/
theorem converting_started {s : State} (h : AloneFrom s) : Converting s (started s) := by
  obtain ⟨-, ha, hi, hm⟩ := h
  have hB := busyOk_beginConversion ha
  exact {
    engine := rfl
    cursors := { hB with }
    config := ⟨rfl, rfl, rfl, rfl, rfl, rfl, rfl, rfl, rfl, rfl, rfl, rfl, rfl, rfl, rfl⟩
    record := ⟨rfl, rfl⟩
    alone := ⟨hi, rfl⟩
    memory := hm
    held := nofun
    packed := fun k j _ hw => by
      rcases hw with hk | ⟨-, hj⟩
      · exact absurd hk (Nat.not_lt_zero k)
      · exact absurd hj (Nat.not_lt_zero j)
    untouched := fun _ _ => rfl }

theorem exec_ctrlStart_of_aloneFrom (r : BitVec 30) {s : State} (h : AloneFrom s) :
    exec (.ctrlStart r) s = .next (started s) := by
  obtain ⟨he, ha, -, -⟩ := h
  exact acceptedStartLatchesAndBegins r s he ha

section
variable {s t : State}

theorem Converting.lat_eq (h : Converting s t) : t.lat = latchedOf s := by
  obtain ⟨-, -, -, -, -, -, -, -, -, -, -, -, -, hlat, -⟩ := h.config
  exact hlat

theorem Converting.plat_eq (h : Converting s t) : t.plat = s.plat := by
  obtain ⟨-, -, -, -, -, -, -, -, -, -, -, -, -, -, hplat⟩ := h.config
  exact hplat

theorem Converting.bppp_eq (h : Converting s t) : t.lat.bppp = widthValue s := by
  rw [h.lat_eq]
  rfl

theorem Converting.len_eq (h : Converting s t) : t.lat.len = s.len := by
  rw [h.lat_eq]
  rfl

theorem Converting.argumentsOk (h : Converting s t) : ArgumentsOk s := by
  have hb := h.cursors.buffers
  rwa [h.lat_eq] at hb

/-- The source cursor stands at the word of the current pixel. -/
theorem Converting.sp_eq (h : Converting s t) : t.sp = srcWordAddr s t.pix.toNat := by
  have hsp := h.cursors.source
  rw [h.lat_eq] at hsp
  apply BitVec.eq_of_toNat_eq
  simp [hsp, srcWordAddr, latchedOf, BitVec.toNat_mul]

/-- The destination cursor stands at the next byte to write. -/
theorem Converting.dp_eq (h : Converting s t) : t.dp = dstByteAddr s t.pix.toNat t.byteIdx.toNat := by
  have hdp := h.cursors.destination
  rw [h.lat_eq] at hdp
  apply BitVec.eq_of_toNat_eq
  simp [hdp, dstByteAddr, latchedOf, BitVec.toNat_mul, Nat.add_assoc]

/-- The source word still to be read is the one START found: the two buffers share no byte. -/
theorem Converting.wordAt_eq (h : Converting s t) {k : Nat} (hk : k < s.len.toNat)
    (hw : bytesWritten t ≤ (widthValue s).toNat * s.len.toNat) :
    wordAt t (srcWordAddr s k) = wordAt s (srcWordAddr s k) := by
  obtain ⟨-, -, -, hdisjoint⟩ := h.argumentsOk (len_ne_zero_of_lt hk)
  refine wordAt_congr h.plat_eq fun i hi => h.untouched _ ?_
  rw [toNat_srcWordAddr_add h.argumentsOk hk hi]
  omega

/-- The destination cursor counts the bytes written. -/
theorem Converting.toNat_dp (h : Converting s t) (hp : t.phase = .write) :
    t.dp.toNat = s.dstAddr.toNat + bytesWritten t := by
  rw [h.cursors.toNat_dp hp, bytesWritten, h.lat_eq]
  rfl

/-- No byte written so far is the one at the destination cursor. -/
theorem Converting.dstByteAddr_ne_dp (h : Converting s t) (hp : t.phase = .write) {k j : Nat}
    (hw : Written t k j) (hj : j < t.lat.bppp.toNat) : dstByteAddr s k j ≠ t.dp := by
  have hpix : t.pix.toNat < s.len.toNat := h.len_eq ▸ (h.cursors.writing hp).1
  have hk : k < s.len.toNat := by omega
  have hoff := hw.offset_lt hj
  rw [h.bppp_eq] at hj hoff
  rw [ne_eq, ← BitVec.toNat_inj, toNat_dstByteAddr h.argumentsOk hk hj, h.toNat_dp hp]
  omega

/-- The bytes held in phase WRITE are the packed bytes of the current pixel. -/
theorem Converting.packedByte_eq (h : Converting s t) (hp : t.phase = .write) (j : Nat) :
    packedByte s t.pix.toNat j = t.out[j]? := by
  rw [packedByte, h.held hp]

/-! ### The steps of a conversion -/

theorem Converting.step_eq (h : Converting s t) : step t = (engineTurn t).outcome :=
  step_of_alone h.engine h.alone.1

theorem Converting.hold (h : Converting s t) (hp : t.phase = .read) (hlt : t.pix.toNat < s.len.toNat) :
    Converting s { t with out := convertPixel t.lat (wordAt t t.sp), byteIdx := 0, phase := .write } := by
  have hidx := h.cursors.reading hp
  have hword : wordAt t t.sp = wordAt s (srcWordAddr s t.pix.toNat) := by
    rw [h.sp_eq]
    refine h.wordAt_eq hlt ?_
    rw [bytesWritten, hidx, h.bppp_eq]
    exact Nat.mul_le_mul_left _ hlt.le
  exact { h with
    cursors := h.cursors.hold hp (h.len_eq ▸ hlt) h.cursors.packer _
    held := fun _ => by rw [hword, h.lat_eq]
    packed := hidx ▸ h.packed
    untouched := hidx ▸ h.untouched }

theorem Converting.store (h : Converting s t) (hp : t.phase = .write) {v : Byte}
    (hv : t.out[t.byteIdx.toNat]? = some v) : Converting s (afterWrite (storeByte t.dp v t)) := by
  have hB : BusyOk (storeByte t.dp v t) := h.cursors.storeByte t.dp v t.draws
  have hbytes : bytesWritten (afterWrite (storeByte t.dp v t)) = bytesWritten t + 1 :=
    bytesWritten_afterWrite hB hp
  have hmem (x : Addr) : byteAt (afterWrite (storeByte t.dp v t)) x = byteAt (storeByte t.dp v t) x := by
    rw [byteAt, afterWrite_mem, byteAt]
  obtain ⟨d, j, p, x, n, a, e⟩ := afterWrite_frame (storeByte t.dp v t)
  refine {
    engine := by rw [e]; exact h.engine
    cursors := hB.afterWrite hp
    config := by rw [e]; exact h.config
    record := by rw [e]; exact h.record
    alone := by rw [e]; exact h.alone
    memory := by rw [e]; exact Memory.wf_set t.dp.isLt h.memory
    held := fun hp' => ?_
    packed := fun k j hj hw => ?_
    untouched := fun x hx => ?_ }
  · rcases afterWrite_cases (storeByte t.dp v t) with ⟨-, e'⟩ | ⟨-, e'⟩ <;> rw [e'] at hp' ⊢
    · exact h.held hp
    · cases hp'
  · rw [hmem]
    rw [← h.bppp_eq] at hj
    rcases written_of_written_afterWrite hB hp hj hw with hold | ⟨rfl, rfl⟩
    · rw [byteAt_storeByte_other t v (h.dstByteAddr_ne_dp hp hold hj)]
      exact h.packed k j (h.bppp_eq ▸ hj) hold
    · have hat : dstByteAddr s (storeByte t.dp v t).pix.toNat (storeByte t.dp v t).byteIdx.toNat = t.dp :=
        h.dp_eq.symm
      rw [hat, byteAt_storeByte_self h.memory]
      exact hv.symm.trans (h.packedByte_eq hp _).symm
  · rw [hbytes] at hx
    have hne : x ≠ t.dp := by
      rintro rfl
      have hdp := h.toNat_dp hp
      omega
    rw [hmem, byteAt_storeByte_other t v hne]
    exact h.untouched x (by omega)

end

/-! ### The engine at a pixel of a conversion -/

/-- The conversion that a START in `s` began is about to read pixel `k`. -/
structure ReadingAt (s : State) (k : Nat) (t : State) : Prop where
  conv : Converting s t
  phase : t.phase = .read
  pix : t.pix.toNat = k

/-- The conversion that a START in `s` began is about to write byte `j` of pixel `k`. -/
structure WritingAt (s : State) (k j : Nat) (t : State) : Prop where
  conv : Converting s t
  phase : t.phase = .write
  pix : t.pix.toNat = k
  byteIdx : t.byteIdx.toNat = j

section
variable {s t : State} {k j : Nat}

theorem ReadingAt.bytesWritten_eq (h : ReadingAt s k t) : bytesWritten t = (widthValue s).toNat * k := by
  rw [bytesWritten, h.conv.cursors.reading h.phase, h.conv.bppp_eq, h.pix]
  rfl

theorem WritingAt.bytesWritten_eq (h : WritingAt s k j t) :
    bytesWritten t = (widthValue s).toNat * k + j := by
  rw [bytesWritten, h.conv.bppp_eq, h.pix, h.byteIdx]

theorem ReadingAt.sp_eq (h : ReadingAt s k t) : t.sp = srcWordAddr s k :=
  h.pix ▸ h.conv.sp_eq

theorem WritingAt.dp_eq (h : WritingAt s k j t) : t.dp = dstByteAddr s k j := by
  rw [h.conv.dp_eq, h.pix, h.byteIdx]

theorem ReadingAt.pixelsDone_eq (h : ReadingAt s k t) : t.pixelsDone.toNat = k := by
  rw [h.conv.cursors.mirror, h.pix]

theorem WritingAt.pixelsDone_eq (h : WritingAt s k j t) : t.pixelsDone.toNat = k := by
  rw [h.conv.cursors.mirror, h.pix]

theorem ReadingAt.pix_lt (h : ReadingAt s k t) (hk : k < s.len.toNat) : t.pix.toNat < t.lat.len.toNat := by
  rwa [h.pix, h.conv.len_eq]

theorem WritingAt.heldByte (h : WritingAt s k j t) : ∃ v, t.out[t.byteIdx.toNat]? = some v :=
  h.conv.cursors.heldByte h.phase

theorem WritingAt.byteIdx_succ (h : WritingAt s k j t) : (t.byteIdx + 1).toNat = j + 1 := by
  rw [h.conv.cursors.toNat_byteIdx_succ h.phase, h.byteIdx]

/-- A read that completes holds the bytes of the pixel (42_sequencer.md R174). -/
theorem ReadingAt.exists_hold (h : ReadingAt s k t) (hk : k < s.len.toNat)
    (hok : wordOk s.plat (srcWordAddr s k) = true) : ∃ u, step t = .next u ∧ WritingAt s k 0 u := by
  have hok' : wordOk t.plat t.sp = true := by rwa [h.conv.plat_eq, h.sp_eq]
  exact ⟨_, h.conv.step_eq.trans
      (engineTurn_of_wordOk h.conv.engine h.phase (h.pix_lt hk) h.conv.cursors.packer hok'),
    h.conv.hold h.phase (h.pix.symm ▸ hk), rfl, h.pix, rfl⟩

/-- A read that fails is the abort (42_sequencer.md R178). -/
theorem ReadingAt.step_of_not_wordOk (h : ReadingAt s k t) (hk : k < s.len.toNat)
    (hok : wordOk s.plat (srcWordAddr s k) = false) :
    step t = .next (raiseAbort .busRead (srcWordAddr s k) t) := by
  have hok' : wordOk t.plat t.sp = false := by rwa [h.conv.plat_eq, h.sp_eq]
  rw [h.conv.step_eq, engineTurn_of_not_wordOk h.conv.engine h.phase (h.pix_lt hk) h.conv.cursors.packer hok',
    h.sp_eq]

/-- After the last pixel the engine completes (42_sequencer.md R177). -/
theorem ReadingAt.step_of_len (h : ReadingAt s s.len.toNat t) : step t = .next { t with engine := .done } := by
  have hx : t.pix = t.lat.len := BitVec.eq_of_toNat_eq (by rw [h.pix, h.conv.len_eq])
  exact step_of_complete h.conv.engine h.conv.alone.1 h.phase hx

/-- A write that completes stores the byte held, and the conversion goes on behind it. -/
theorem WritingAt.exists_store (h : WritingAt s k j t) (hok : memOk s.plat (dstByteAddr s k j) = true) :
    ∃ v, step t = .next (afterWrite (storeByte t.dp v t)) ∧
      Converting s (afterWrite (storeByte t.dp v t)) := by
  obtain ⟨v, hv⟩ := h.heldByte
  have hok' : memOk t.plat t.dp = true := by rwa [h.conv.plat_eq, h.dp_eq]
  have hr : pixelRaced t = false := by
    rw [pixelRaced, h.conv.alone.2]
    rfl
  exact ⟨v, h.conv.step_eq.trans (engineTurn_of_memOk h.phase hv hok' hr), h.conv.store h.phase hv⟩

/-- A byte before the last of its pixel is followed by the next (42_sequencer.md R175). -/
theorem WritingAt.exists_next (h : WritingAt s k j t) (hj : j + 1 < (widthValue s).toNat)
    (hok : memOk s.plat (dstByteAddr s k j) = true) : ∃ u, step t = .next u ∧ WritingAt s k (j + 1) u := by
  obtain ⟨v, hstep, hconv⟩ := h.exists_store hok
  have hne : ((storeByte t.dp v t).byteIdx + 1).toNat ≠ (storeByte t.dp v t).lat.bppp.toNat := by
    show (t.byteIdx + 1).toNat ≠ t.lat.bppp.toNat
    rw [h.byteIdx_succ, h.conv.bppp_eq]
    exact hj.ne
  rw [afterWrite_of_not_last hne] at hstep hconv
  exact ⟨_, hstep, hconv, h.phase, h.pix, h.byteIdx_succ⟩

/-- The last byte of a pixel is followed by the read of the next pixel (42_sequencer.md R176). -/
theorem WritingAt.exists_last (h : WritingAt s k j t) (hj : j + 1 = (widthValue s).toNat)
    (hok : memOk s.plat (dstByteAddr s k j) = true) : ∃ u, step t = .next u ∧ ReadingAt s (k + 1) u := by
  obtain ⟨v, hstep, hconv⟩ := h.exists_store hok
  have heq : ((storeByte t.dp v t).byteIdx + 1).toNat = (storeByte t.dp v t).lat.bppp.toNat := by
    show (t.byteIdx + 1).toNat = t.lat.bppp.toNat
    rw [h.byteIdx_succ, h.conv.bppp_eq, hj]
  rw [afterWrite_of_last heq] at hstep hconv
  have hpix : (t.pix + 1).toNat = k + 1 := by rw [h.conv.cursors.toNat_pix_succ h.phase, h.pix]
  exact ⟨_, hstep, hconv, rfl, hpix⟩

/-- A write that fails is the abort (42_sequencer.md R179). -/
theorem WritingAt.step_of_not_memOk (h : WritingAt s k j t) (hok : memOk s.plat (dstByteAddr s k j) = false) :
    step t = .next (raiseAbort .busWrite (dstByteAddr s k j) t) := by
  obtain ⟨v, hv⟩ := h.heldByte
  have hok' : memOk t.plat t.dp = false := by rwa [h.conv.plat_eq, h.dp_eq]
  rw [h.conv.step_eq, engineTurn_of_not_memOk h.phase hv hok', h.dp_eq]

/-! ### Runs over pixels whose accesses complete -/

/-- From the read of a pixel, `1 + j` steps whose accesses complete reach the write of its byte `j`. -/
theorem ReadingAt.exists_writingAt {n : Nat} {u : State} (hrun : BusyRun n u t) (h : ReadingAt s k t)
    (hk : k < s.len.toNat) (hword : wordOk s.plat (srcWordAddr s k) = true) (hj : j < (widthValue s).toNat)
    (hok : ∀ j' < j, memOk s.plat (dstByteAddr s k j') = true) :
    ∃ v, BusyRun (n + 1 + j) u v ∧ WritingAt s k j v := by
  induction j with
  | zero =>
    obtain ⟨v, hstep, hv⟩ := h.exists_hold hk hword
    exact ⟨v, hrun.snoc h.conv.engine hstep, hv⟩
  | succ j ih =>
    obtain ⟨w, hw, hat⟩ := ih (Nat.lt_of_succ_lt hj) fun j' hj' => hok j' (Nat.lt_succ_of_lt hj')
    obtain ⟨v, hstep, hv⟩ := hat.exists_next hj (hok j (Nat.lt_succ_self j))
    exact ⟨v, hw.snoc hat.conv.engine hstep, hv⟩

/-- A pixel whose accesses complete takes its read and one step for each byte (42_sequencer.md R182). -/
theorem ReadingAt.exists_succ {n : Nat} {u : State} (hrun : BusyRun n u t) (h : ReadingAt s k t)
    (hk : k < s.len.toNat) (hok : PixelOk s k) :
    ∃ v, BusyRun (n + (1 + (widthValue s).toNat)) u v ∧ ReadingAt s (k + 1) v := by
  obtain ⟨hword, hbytes⟩ := hok
  have hpos : 0 < (widthValue s).toNat :=
    ((packerWidth_iff_toNat _).mp (h.conv.bppp_eq ▸ h.conv.cursors.packer)).1
  obtain ⟨j, hj⟩ : ∃ j, j + 1 = (widthValue s).toNat := ⟨_, Nat.sub_add_cancel hpos⟩
  have hlt : j < (widthValue s).toNat := by omega
  obtain ⟨w, hw, hat⟩ := h.exists_writingAt hrun hk hword hlt fun j' hj' => hbytes j' (hj'.trans hlt)
  obtain ⟨v, hstep, hv⟩ := hat.exists_last hj (hbytes j hlt)
  have hcount : n + (1 + (widthValue s).toNat) = n + 1 + j + 1 := by omega
  exact ⟨v, hcount ▸ hw.snoc hat.conv.engine hstep, hv⟩

/-- After `k` pixels whose accesses complete the engine is at the read of pixel `k`. -/
theorem exists_readingAt (hs : AloneFrom s) (hk : k ≤ s.len.toNat) (hok : ∀ k' < k, PixelOk s k') :
    ∃ t, BusyRun (k * (1 + (widthValue s).toNat)) (started s) t ∧ ReadingAt s k t := by
  induction k with
  | zero =>
    rw [Nat.zero_mul]
    exact ⟨started s, .refl _, converting_started hs, rfl, rfl⟩
  | succ k ih =>
    obtain ⟨t, hrun, ht⟩ := ih (Nat.le_of_succ_le hk) fun k' hk' => hok k' (Nat.lt_succ_of_lt hk')
    rw [Nat.succ_mul]
    exact ht.exists_succ hrun hk (hok k (Nat.lt_succ_self k))

/-! ### Memory where a conversion ends -/

theorem ReadingAt.packed (h : ReadingAt s k t) :
    ∀ k' < k, ∀ j < (widthValue s).toNat, some (byteAt t (dstByteAddr s k' j)) = packedByte s k' j :=
  fun k' hk' j hj => h.conv.packed k' j hj (.inl (h.pix.symm ▸ hk'))

theorem ReadingAt.untouched (h : ReadingAt s k t) (x : Addr)
    (hx : x.toNat < s.dstAddr.toNat ∨ s.dstAddr.toNat + (widthValue s).toNat * k ≤ x.toNat) :
    byteAt t x = byteAt s x :=
  h.conv.untouched x (h.bytesWritten_eq.symm ▸ hx)

theorem WritingAt.packed (h : WritingAt s k j t) (k' j' : Nat) (hj' : j' < (widthValue s).toNat)
    (hb : k' < k ∨ (k' = k ∧ j' < j)) : some (byteAt t (dstByteAddr s k' j')) = packedByte s k' j' := by
  refine h.conv.packed k' j' hj' ?_
  rwa [Written, h.pix, h.byteIdx]

theorem WritingAt.untouched (h : WritingAt s k j t) (x : Addr)
    (hx : x.toNat < s.dstAddr.toNat ∨ s.dstAddr.toNat + (widthValue s).toNat * k + j ≤ x.toNat) :
    byteAt t x = byteAt s x := by
  refine h.conv.untouched x ?_
  rwa [h.bytesWritten_eq, ← Nat.add_assoc]

end

end Sys2Proof.Machine

open Sys2Proof.Machine

/-- Settles O39: after the last pixel one step more completes the conversion. -/
theorem conversionPacksEveryPixel : Obligations.ConversionPacksEveryPixel := by
  intro r s hs hok
  obtain ⟨t, hrun, ht⟩ := exists_readingAt hs le_rfl hok
  obtain ⟨hbusy, hend⟩ := hrun.snoc ht.conv.engine ht.step_of_len
  rw [Nat.add_comm]
  exact ⟨started s, _, exec_ctrlStart_of_aloneFrom r hs, hbusy, hend, rfl, ht.conv.record.1,
    ht.conv.record.2, BitVec.eq_of_toNat_eq ht.pixelsDone_eq, ht.conv.config, ht.packed, ht.untouched⟩

/-- Settles O40: the read of pixel `k` is the step after those of the pixels before it. -/
theorem readBusErrorIsPrecise : Obligations.ReadBusErrorIsPrecise := by
  intro r s k hs hk hok hfail
  obtain ⟨t, hrun, ht⟩ := exists_readingAt hs hk.le hok
  obtain ⟨hbusy, hend⟩ := hrun.snoc ht.conv.engine (ht.step_of_not_wordOk hk hfail)
  exact ⟨started s, _, exec_ctrlStart_of_aloneFrom r hs, hbusy, hend, rfl, rfl, rfl,
    ht.pixelsDone_eq, ht.conv.config, ht.packed, ht.untouched⟩

/-- Settles O41: the write of byte `j` is the step after the pixel's read and its `j` bytes before. -/
theorem writeBusErrorIsPrecise : Obligations.WriteBusErrorIsPrecise := by
  intro r s k j hs hk hj hok hword hbytes hfail
  obtain ⟨t, hrun, ht⟩ := exists_readingAt hs hk.le hok
  obtain ⟨w, hrun', hw⟩ := ht.exists_writingAt hrun hk hword hj hbytes
  obtain ⟨hbusy, hend⟩ := hrun'.snoc hw.conv.engine (hw.step_of_not_memOk hfail)
  exact ⟨started s, _, exec_ctrlStart_of_aloneFrom r hs, hbusy, hend, rfl, rfl, rfl,
    hw.pixelsDone_eq, hw.conv.config, hw.packed, hw.untouched⟩

end

section
/-! Proofs of the family 60_exceptions.md, part 1: the first check that fails is the abort of a START (O18). -/

open Sys2Proof.Spec

namespace Sys2Proof.Machine

/-! ### The first failing check of a list -/

/-- The cause and the FAULT_ADDR of the first check of a list that fails (60_exceptions.md R195). -/
def firstFailing (l : List (Bool × Cause × Addr)) : Option (Cause × Addr) :=
  (l.find? Prod.fst).map Prod.snd

@[simp] theorem firstFailing_nil : firstFailing [] = none := rfl

@[simp] theorem firstFailing_cons (b : Bool) (p : Cause × Addr) (l : List (Bool × Cause × Addr)) :
    firstFailing ((b, p) :: l) = if b = true then some p else firstFailing l := by
  cases b <;> rfl

theorem firstFailing_append (l m : List (Bool × Cause × Addr)) :
    firstFailing (l ++ m) = (firstFailing l).or (firstFailing m) := by
  rw [firstFailing, List.find?_append, Option.map_or, firstFailing, firstFailing]

/-- Checks that pass are passed over, and those after a failing one are not looked at. -/
theorem firstFailing_of_first {before after : List (Bool × Cause × Addr)} {p : Cause × Addr}
    (h : ∀ x ∈ before, x.1 = false) : firstFailing (before ++ (true, p) :: after) = some p := by
  have hbefore : firstFailing before = none := by
    rw [firstFailing, Option.map_eq_none_iff, List.find?_eq_none]
    exact fun x hx => by simp [h x hx]
  rw [firstFailing_append, hbefore, Option.none_or, firstFailing_cons, if_pos rfl]

/-! ### The eleven checks of START (42_sequencer.md R171) -/

/-- The first seven checks are those of the formats and the width, which record the address 0. -/
theorem firstFailing_formatChecks (s : State) :
    firstFailing ((checks s).take 7) =
      (formatCheck (srcFormat s) (dstFormat s) (widthValue s)).map (·, 0) := by
  have hwidth := packerWidth_iff_toNat (s.bppp.extractLsb' 0 8)
  have hbpp : s.srcCfg.extractLsb' 0 8 = 32 ↔ (s.srcCfg.extractLsb' 0 8).toNat = 32 :=
    (BitVec.toNat_inj (y := 32#8)).symm
  simp only [formatCheck, srcFormat, dstFormat, formatOf, widthValue, hwidth, hbpp, ne_eq,
    apply_ite (Option.map fun c : Cause => (c, (0 : Addr))), Option.map_some, Option.map_none]
  simp only [checks, List.take_succ_cons, List.take_zero, firstFailing_cons, firstFailing_nil,
    decide_eq_true_eq, Bool.not_eq_true', ne_eq]

/-- The last four checks are those of the buffers, made only where there is one. -/
theorem firstFailing_bufferChecks (s : State) :
    firstFailing ((checks s).drop 7) = bufferCheck s.srcAddr s.dstAddr s.len (widthValue s) := by
  by_cases hlen : s.len = 0
  · simp [bufferCheck, checks, hlen]
  · have hpos : 0 < s.len.toNat := Nat.pos_of_ne_zero fun h => hlen (BitVec.eq_of_toNat_eq h)
    simp only [bufferCheck, srcEnd, dstEnd, widthValue, hlen, ne_eq, lowTwo_eq_zero, if_false]
    simp only [checks, hpos, List.drop_succ_cons, List.drop_zero, firstFailing_cons, firstFailing_nil,
      decide_true, Bool.true_and, decide_eq_true_eq, ne_eq]
    congr

/-- START looks for the first failing check of the list. -/
theorem startCheck_eq_firstFailing (s : State) : startCheck s = firstFailing (checks s) := by
  rw [← List.take_append_drop 7 (checks s), firstFailing_append, firstFailing_formatChecks,
    firstFailing_bufferChecks, startCheck]
  cases formatCheck (srcFormat s) (dstFormat s) (widthValue s) <;> rfl

end Sys2Proof.Machine

open Sys2Proof.Machine

/-- Settles O18: START takes the abort of the first failing check of the list. -/
theorem startReportsTheFirstFailingCheck : Obligations.StartReportsTheFirstFailingCheck := by
  intro r s before after c a he hchecks hpass
  have hfirst : startCheck s = some (c, a) := by
    rw [startCheck_eq_firstFailing, hchecks, firstFailing_of_first hpass]
  rw [exec_ctrlStart, commandStart_of_startCheck he hfirst]
  rfl

end

section
/-! Proofs of the family 60_exceptions.md, part 2: the machine never stops from a state of the invariant (O50), and
where nothing is enabled it waits (O34, O57). -/

namespace Sys2Proof.Machine

/-! ### Every event has a next state in the invariant -/

/-- The engine's turn of a running conversion meets neither fault of the model (entry 13): it holds a byte in
phase WRITE, and its pixel index is not above `L.len`. -/
theorem BusyOk.exists_engineTurn {s : State} (h : BusyOk s) : ∃ t, (engineTurn s).outcome = .next t := by
  rcases engineTurn_cases s with ⟨hp, e⟩ | ⟨-, -, e⟩ | ⟨-, -, e⟩ | ⟨-, hgt, -⟩
  · obtain ⟨v, hv⟩ := h.heldByte hp
    rw [e, Fetched.outcome]
    cases hok : memOk s.plat s.dp with
    | false => exact ⟨_, writeStep_of_not_memOk hv hok⟩
    | true => exact ⟨_, writeStep_of_memOk hv hok⟩
  · rw [e]
    exact exec_next _ s
  · rw [e]
    exact ⟨_, rfl⟩
  · exact absurd h.bound (Nat.not_le.mpr hgt)

/-- Every input is served, in any state. -/
theorem exists_serveInput (x : Input) (s : State) : ∃ t, (serveInput x s).outcome = .next t := by
  cases x with
  | access a =>
    rw [serveInput]
    rcases serveAccess_cases a s with ⟨r, e⟩ | ⟨off, i, -, -, -, e⟩ <;> rw [e]
    · exact ⟨_, rfl⟩
    · exact exec_next i s
  | memRead a => exact ⟨_, rfl⟩
  | memWrite a v => exact ⟨_, rfl⟩
  | reset => exact ⟨_, rfl⟩

theorem Inv.steps {s : State} (h : Inv s) : Steps s := by
  rw [Steps, step_eq_outcome]
  rcases fetchNext_cases s with ⟨-, -, e⟩ | ⟨hb, rest, -, e⟩ | ⟨n, x, rest, -, -, e⟩ <;> rw [e]
  · exact ⟨s, rfl⟩
  · exact ((h.withInputs rest).conversion hb).exists_engineTurn
  · exact exists_serveInput x _

theorem Inv.runsFor {s : State} (h : Inv s) (n : Nat) : RunsFor n s := by
  induction n generalizing s with
  | zero => exact ⟨s, run_zero s⟩
  | succ n ih =>
    obtain ⟨t, ht⟩ := h.steps
    rw [RunsFor, run_succ_next ht]
    exact ih (h.step ht)

/-! ### Where nothing is enabled (60_exceptions.md R207) -/

theorem readStep_of_not_enabled {s : State} (h : ¬ readEnabled s) (pack : Bool → Word → List Byte) :
    readStep pack s = s :=
  if_neg h

theorem step_of_waiting {s : State} (hb : s.engine ≠ .busy) (hi : s.inputs = []) : step s = .next s :=
  (step_of_inputs_nil hi).trans (if_neg hb)

/-- A state that steps to itself runs to itself. -/
theorem run_of_step_self {s : State} (h : step s = .next s) (n : Nat) :
    Sys2Proof.core.run n s = .next s := by
  induction n with
  | zero => exact run_zero s
  | succ n ih => rw [run_succ_next h, ih]

end Sys2Proof.Machine

open Sys2Proof.Machine

/-- Settles O50: the invariant gives a next state and is kept by the step to it. -/
theorem invariantStatesRunForEver : Obligations.InvariantStatesRunForEver :=
  fun _ h => ⟨h.steps, h.runsFor⟩

/-- Settles O34: each packer is the read step, which changes nothing where it is not enabled. -/
theorem packModesWaitWhereNoReadIsEnabled : Obligations.PackModesWaitWhereNoReadIsEnabled := by
  intro s h
  rw [exec_pack1, exec_pack2, exec_pack3]
  simp only [readStep_of_not_enabled h, and_self]

/-- Settles O57: a step that waits leaves the state, and so does a run of such steps. -/
theorem engineWaitsWhereNothingIsPending : Obligations.EngineWaitsWhereNothingIsPending := by
  intro s hb hi
  have hstep := step_of_waiting hb hi
  exact ⟨hstep, run_of_step_self hstep⟩

end

section
/-! Proofs of the family 60_exceptions.md, part 3: the record of an abort stands (O53). -/

open Sys2Proof.Spec

namespace Sys2Proof.Machine

/-- STATUS, FAULT_ADDR and PIXELS_DONE read in `t` as they did in `s` (60_exceptions.md R197). -/
abbrev SameRecord (s t : State) : Prop :=
  t.engine = s.engine ∧ t.cause = s.cause ∧ t.faultAddr = s.faultAddr ∧ t.pixelsDone = s.pixelsDone

/-- In ABORTED only the two commands with CLEAR can touch the record: a START is ignored (40_host_ops.md R137). -/
theorem HostEffect.of_aborted {s t : State} {i : Instr} (ha : s.engine = .aborted) (h : HostEffect s i t) :
    SameRecord s t ∨ ∃ r, i = .ctrlClear r ∨ i = .ctrlClearStart r := by
  cases h with
  | answer => exact .inl ⟨rfl, rfl, rfl, rfl⟩
  | write _ q d =>
    exact .inl ⟨writeReg_engine q d s, writeReg_cause q d s, writeReg_faultAddr q d s, writeReg_pixelsDone q d s⟩
  | start =>
    rw [commandStart_of_ignored (.inr ha)]
    exact .inl ⟨rfl, rfl, rfl, rfl⟩
  | clear r => exact .inr ⟨r, .inl rfl⟩
  | clearStart r => exact .inr ⟨r, .inr rfl⟩

/-- In ABORTED an input keeps the record, and memory unless it is an outside write, or it is a reset, or a legal
access that runs a command with CLEAR. -/
theorem InputEffect.of_aborted {s t : State} {x : Input} (ha : s.engine = .aborted) (h : InputEffect s x t) :
    (SameRecord s t ∧ (t.mem = s.mem ∨ ∃ a v, x = .memWrite a v)) ∨ x = .reset ∨
    ∃ a off i r, x = .access a ∧ windowOffset s.plat a.addr = some off ∧ legalAccess off a.bytes = true ∧
      decode (.mmio (accessWord off a)) = .ok i ∧ (i = .ctrlClear r ∨ i = .ctrlClearStart r) := by
  cases h with
  | answer => exact .inl ⟨⟨rfl, rfl, rfl, rfl⟩, .inl rfl⟩
  | operation hw hl hd hi =>
    rcases hi.of_aborted ha with hrec | ⟨r, hclear⟩
    · exact .inl ⟨hrec, .inl hi.mem_plat.1⟩
    · exact .inr (.inr ⟨_, _, _, r, rfl, hw, hl, hd, hclear⟩)
  | memRead => exact .inl ⟨⟨rfl, rfl, rfl, rfl⟩, .inl rfl⟩
  | memWrite a v => exact .inl ⟨⟨rfl, rfl, rfl, rfl⟩, .inr ⟨a, v, rfl⟩⟩
  | reset => exact .inr (.inl rfl)

end Sys2Proof.Machine

open Sys2Proof.Machine

/-- Settles O53: in ABORTED the engine does not move, so a step waits or serves an input. -/
theorem abortRecordIsStickyUntilClearOrReset : Obligations.AbortRecordIsStickyUntilClearOrReset := by
  intro s t ha ht
  rcases step_cases ht with ⟨-, -, rfl⟩ | ⟨hb, -⟩ | ⟨x, rest, hx, he⟩
  · exact .inl ⟨ha, rfl, rfl, rfl, .inl rfl⟩
  · exact absurd (ha.symm.trans hb) nofun
  · rcases he.of_aborted (s := { s with inputs := rest }) ha with
      ⟨⟨hengine, hcause, haddr, hcount⟩, hmem⟩ | rfl | ⟨a, off, i, r, rfl, hw, hl, hd, hi⟩
    · exact .inl ⟨hengine.trans ha, hcause, haddr, hcount,
        hmem.imp_right fun ⟨a, v, e⟩ => ⟨a, v, rest, e ▸ hx⟩⟩
    · exact .inr (.inl ⟨rest, hx⟩)
    · have hserves : ServesOperation s i := ⟨a, rest, off, hx, hw, hl, hd⟩
      rcases hi with rfl | rfl
      · exact .inr (.inr ⟨r, .inl hserves⟩)
      · exact .inr (.inr ⟨r, .inr hserves⟩)

end

section
/-! Proofs of the family 70_reset_and_hazards.md: the values right after reset (O46), and what a reset at any
moment leaves (O47). -/

namespace Sys2Proof.Machine

/-! ### The registers right after reset (70_reset_and_hazards.md R220) -/

theorem readReg_reset (r : RegName) : readReg State.reset r = if r = .id then 0x504B0001 else 0 := by
  cases r <;> rfl

theorem exec_readInstr_reset (r : RegName) :
    exec (readInstr r) State.reset =
      .next (respond (.data (if r = .id then 0x504B0001 else 0)) State.reset) := by
  rw [exec_readInstr, hostRead, readReg_reset]

/-! ### The bytes a reset abandons (70_reset_and_hazards.md R221, entry 9) -/

theorem abandonedBytes_of_busy {s : State} (h : s.engine = .busy) :
    abandonedBytes s = s.lat.bppp.toNat * s.lat.len.toNat := if_pos h

theorem abandonedBytes_of_not_busy {s : State} (h : s.engine ≠ .busy) : abandonedBytes s = 0 := if_neg h

/-- Outside BUSY a reset abandons no byte, so it leaves memory. -/
theorem resetBlock_mem_of_not_busy {s : State} (h : s.engine ≠ .busy) : (resetBlock s).mem = s.mem := by
  rw [resetBlock, abandonedBytes_of_not_busy h, Memory.freeRange]

/-- The destination bytes of the conversion lie one after the other, without a wrap. -/
theorem BusyOk.toNat_dstAddr_add {s : State} (h : BusyOk s) {t : Nat}
    (ht : t < s.lat.bppp.toNat * s.lat.len.toNat) :
    (s.lat.dstAddr + BitVec.ofNat 32 t).toNat = s.lat.dstAddr.toNat + t := by
  have hpixel : 0 < s.lat.len.toNat := Nat.pos_of_mul_pos_left (Nat.zero_lt_of_lt ht)
  have hend := h.destination_end hpixel
  simp only [BitVec.toNat_add, BitVec.toNat_ofNat]
  omega

/-- A reset leaves every byte outside the destination range. In BUSY the drawn bytes are exactly that range,
since by the invariant it does not wrap. -/
theorem byteAt_resetBlock_other {s : State} (h : Inv s) {x : Addr} (hx : ¬ InDestination s.lat x) :
    byteAt (resetBlock s) x = byteAt s x := by
  by_cases hb : s.engine = .busy
  · refine Memory.get_freeRange_other _ _ _ _ fun t ht => ?_
    rw [abandonedBytes_of_busy hb] at ht
    rw [(h.conversion hb).toNat_dstAddr_add ht]
    omega
  · rw [byteAt, resetBlock_mem_of_not_busy hb, byteAt]

end Sys2Proof.Machine

open Sys2Proof.Machine

/-- Settles O46: of the eighteen registers only ID reads a value other than 0. -/
theorem resetHoldsTheSpecValues : Obligations.ResetHoldsTheSpecValues := by
  refine ⟨?_, rfl, rfl, irqLevel_of_idle rfl⟩
  simp only [exec_readInstr_reset]
  rfl

/-- Settles O47: the input served is `resetBlock`, which starts from `State.reset` and draws the abandoned
bytes. -/
theorem resetKeepsMemoryOutsideTheAbandonedBytes :
    Obligations.ResetKeepsMemoryOutsideTheAbandonedBytes := by
  intro s rest hI hx
  refine ⟨resetBlock { s with inputs := rest }, step_of_served hx, rfl, rfl, rfl, rfl, rfl, rfl, rfl, rfl,
    rfl, rfl, rfl, rfl, rfl, rfl, rfl, rfl, rfl, rfl, rfl, ?_, fun x hout => ?_⟩
  · exact resetBlock_mem_of_not_busy (s := { s with inputs := rest })
  · have houtside : ¬ InDestination s.lat x := by
      rw [InDestination]
      omega
    exact byteAt_resetBlock_other (hI.withInputs rest) houtside

end
